-- ==== Sys2Proof/Word.lean ====
section
/-! DEFINITION. The two word types of the block (spec/00_scope.md R6): a byte is 8 bits, a word is 32 bits, both
unsigned. -/

namespace Sys2Proof

/-- A byte: 8 bits, an unsigned value 0 to 255 (R6). -/
abbrev Byte := BitVec 8

/-- A word: 32 bits, an unsigned value (R6). -/
abbrev Word := BitVec 32

/-- `zext_32(b)`: bits 7:0 are `b`, bits 31:8 are 0 (R6). -/
def zext32 (b : Byte) : Word := b.setWidth 32

end Sys2Proof
end

