-- ==== Sys2Proof/Config.lean ====
section
/-! DEFINITION. The configuration of the block (spec/00_scope.md R4): the fixed constants, and the two parameters with
their defaults. The spec leaves no result of an instruction open, so there is no free value here. -/

namespace Sys2Proof

/-- `POLY`, fixed (R4). -/
def Config.poly : Word := 0xEDB88320#32

/-- `INIT`, fixed (R4). -/
def Config.init : Word := 0xFFFFFFFF#32

/-- `XOROUT`, fixed (R4). -/
def Config.xorOut : Word := 0xFFFFFFFF#32

/-- `ROUNDS`, fixed (R4). -/
def Config.rounds : Nat := 8

/-- `SIGNATURE`, the 8 bytes in stream order, fixed (R4, R65). -/
def Config.signature : Vector Byte 8 := #v[0x89#8, 0x50#8, 0x4E#8, 0x47#8, 0x0D#8, 0x0A#8, 0x1A#8, 0x0A#8]

/-- The default of `TERMINATOR`: the bytes 49 45 4E 44, first byte in bits 31:24 (R4; decision D9 of the spec). -/
def Config.defaultTerminator : Word := 0x49454E44#32

/-- The two parameters of R4, "arguments with the default shown".
DESIGN CHOICE (log entry 8, safe): they are held in a field of State that no step changes, so that a statement about
every state is a statement about every value of the parameters. -/
structure Params where
  /-- `TERMINATOR`: the type that ends a run. -/
  terminator : Word := Config.defaultTerminator
  /-- `IDX_WIDTH`: `none` is the level of the rules, where `IDX` is unbounded; `some w` is a realisation that holds it in
  `w` bits (R17). -/
  idxWidth : Option Nat := none
  deriving DecidableEq, Repr

end Sys2Proof
end

