-- ==== Sys2Proof/Syntax.lean ====
section
/-! DEFINITION. The instructions: one constructor per row of spec/opcode_table.json (spec/30_encoding.md R60: command words
and stream records), and the named codes of results (R72, R73). -/

namespace Sys2Proof

/-- One constructor per row of the opcode table, in its order. The `arg` of a command without an operand is ignored (R64), so
such a command carries none (log entry 11). -/
inductive Instr where
  /-- BUILD (spec/40_crc_engine.md R105). -/
  | build
  /-- TBLRD i (R106): `i` is the table index 0 to 255. -/
  | tblrd (i : Byte)
  /-- CRCINIT (R107). -/
  | crcinit
  /-- CRCBYTE b (R108): `b` is the data byte. -/
  | crcbyte (b : Byte)
  /-- CRCFIN (R109). -/
  | crcfin
  /-- VALIDATE (spec/41_chunk_validator.md R138). -/
  | validate
  /-- The reserved opcode 0b110 (R63). -/
  | reserved6
  /-- The reserved opcode 0b111 (R63). -/
  | reserved7
  /-- SIG: the signature record (R65, R140). -/
  | sig
  /-- CHUNK: a chunk record whose type is not `TERMINATOR` (R66, R69, R144). -/
  | chunk (length typ : Word) (data : List Byte) (stored : Word)
  /-- CHUNK.TERM: a chunk record whose type is `TERMINATOR` (R66, R69, R135). -/
  | chunkTerm (length : Word) (data : List Byte) (stored : Word)
  deriving DecidableEq, Repr

/-- The four outcomes of a run, held in RES_KIND (R72, spec/60_exceptions.md R170). -/
inductive ResKind where
  | allValid
  | notThisFormat
  | mismatch
  | truncated
  deriving DecidableEq, Repr

/-- The values RES_FIELD takes (R73); the codes 6 and 7 are never produced (U19). -/
inductive ResField where
  | none
  | signature
  | length
  | typ
  | data
  | crc
  deriving DecidableEq, Repr

end Sys2Proof
end

