-- ==== Sys2Proof/WellFormed.lean ====
section
/-! DEFINITION. Which terms of Instr are instructions of the encoding (spec/30_encoding.md R66, R68, R69): a chunk record
carries exactly `length` payload bytes, and the generic chunk's type is not the terminator. -/

namespace Sys2Proof

/-- `data` is exactly `length` bytes (R66, R68). -/
def lengthAgrees (length : Word) (data : List Byte) : Bool := data.length == length.toNat

/-- The instruction is one that the encoding has, for the parameters `p`. -/
def Instr.wf (p : Params) : Instr → Bool
  | .build => true
  | .tblrd _ => true
  | .crcinit => true
  | .crcbyte _ => true
  | .crcfin => true
  | .validate => true
  | .reserved6 => true
  | .reserved7 => true
  | .sig => true
  | .chunk length typ data _ => lengthAgrees length data && typ != p.terminator
  | .chunkTerm length data _ => lengthAgrees length data

end Sys2Proof
end

