-- ==== Sys2Proof/Decode.lean ====
section
/-! DEFINITION. Decoding and encoding (spec/30_encoding.md): the 11-bit command word (R61 to R64), the signature record
(R65), the chunk record (R66 to R71), the codes of results (R72, R73). Decoding is total: every command word is a row, and
bytes that are no record are rejected by name (R70). -/

namespace Sys2Proof

/-! ## Fields -/

/-- `BE32(b0, b1, b2, b3)`, the first byte in stream order most significant (R67). -/
def be32 (b0 b1 b2 b3 : Byte) : Word :=
  (zext32 b0 <<< 24) ||| (zext32 b1 <<< 16) ||| (zext32 b2 <<< 8) ||| zext32 b3

/-- The four bytes of a word in stream order: bits 31:24 first (R46, R47). -/
def be32Bytes (w : Word) : List Byte :=
  [w.extractLsb' 24 8, w.extractLsb' 16 8, w.extractLsb' 8 8, w.extractLsb' 0 8]

/-- The signature record as a list of bytes (R65). -/
def signatureBytes : List Byte := Config.signature.toList

/-- `SIGNATURE[K]`; a 3-bit `K` is always an index of the 8 bytes (R4, R140). -/
def signatureByte (k : BitVec 3) : Byte := Config.signature[k.toNat]'k.isLt

/-! ## Command words -/

/-- `cmd[10:8]` (R61). -/
def cmdOp (w : BitVec 11) : BitVec 3 := w.extractLsb' 8 3

/-- `cmd[7:0]` (R61). -/
def cmdArg (w : BitVec 11) : Byte := w.extractLsb' 0 8

/-- The command word `(op << 8) | arg` (R75). -/
def cmdWord (op : BitVec 3) (arg : Byte) : BitVec 11 := op ++ arg

/-- The opcode map of R62: every 11-bit word is one of the eight command rows. -/
def decodeCommand (w : BitVec 11) : Instr :=
  match (cmdOp w).toNat with
  | 0 => .build
  | 1 => .tblrd (cmdArg w)
  | 2 => .crcinit
  | 3 => .crcbyte (cmdArg w)
  | 4 => .crcfin
  | 5 => .validate
  | 6 => .reserved6
  | _ => .reserved7

/-! ## Stream records -/

/-- Why bytes of the stream are no record (R70; a wrong checksum is found by running the record, not by decoding it). -/
inductive Reject where
  /-- The bytes end inside this field. -/
  | truncated (field : ResField)
  /-- Eight bytes that are not the signature. -/
  | notThisFormat
  deriving DecidableEq, Repr

/-- What decoding a record from the front of a byte sequence gives. -/
inductive Decoded where
  /-- The record, and the bytes after it. -/
  | record (i : Instr) (rest : List Byte)
  | rejected (why : Reject)
  deriving DecidableEq, Repr

/-- All-or-failure read of `n` bytes from the front: the bytes and what follows them (spec/20_memory.md R42). -/
def splitBytes (n : Nat) (bs : List Byte) : Option (List Byte × List Byte) :=
  if n ≤ bs.length then some (bs.take n, bs.drop n) else none

/-- Four bytes as a big-endian word (R67); only ever applied to four bytes. -/
def be32Of : List Byte → Word
  | [b0, b1, b2, b3] => be32 b0 b1 b2 b3
  | _ => 0#32

/-- The signature record (R65): exactly the 8 bytes, compared byte for byte. -/
def decodeSig (bs : List Byte) : Decoded :=
  match splitBytes 8 bs with
  | none => .rejected (.truncated .signature)
  | some (r, rest) => if r = signatureBytes then .record .sig rest else .rejected .notThisFormat

/-- A chunk record (R66): its four fields in order; the type field selects the row (R69). -/
def decodeChunk (p : Params) (bs : List Byte) : Decoded :=
  match splitBytes 4 bs with
  | none => .rejected (.truncated .length)
  | some (l, bs1) =>
    match splitBytes 4 bs1 with
    | none => .rejected (.truncated .typ)
    | some (t, bs2) =>
      match splitBytes (be32Of l).toNat bs2 with
      | none => .rejected (.truncated .data)
      | some (d, bs3) =>
        match splitBytes 4 bs3 with
        | none => .rejected (.truncated .crc)
        | some (c, rest) =>
          if be32Of t = p.terminator then .record (.chunkTerm (be32Of l) d (be32Of c)) rest
          else .record (.chunk (be32Of l) (be32Of t) d (be32Of c)) rest

/-- A record of the stream: the signature first and exactly once, then chunk records (R60). -/
def decodeRecord (p : Params) (first : Bool) (bs : List Byte) : Decoded :=
  if first then decodeSig bs else decodeChunk p bs

/-! ## The encoder -/

/-- The two encoding spaces of R60. -/
inductive Encoded where
  | command (w : BitVec 11)
  | record (bytes : List Byte)
  deriving DecidableEq, Repr

/-- The bytes of a chunk record: length, type, data, stored_crc, no padding (R66). -/
def chunkBytes (length typ : Word) (data : List Byte) (stored : Word) : List Byte :=
  be32Bytes length ++ be32Bytes typ ++ data ++ be32Bytes stored

/-- The words or bytes of an instruction, from the tables of R62, R65 and R66; `arg` is 0 where it is ignored (R75). -/
def encode (p : Params) : Instr → Encoded
  | .build => .command (cmdWord 0 0)
  | .tblrd i => .command (cmdWord 1 i)
  | .crcinit => .command (cmdWord 2 0)
  | .crcbyte b => .command (cmdWord 3 b)
  | .crcfin => .command (cmdWord 4 0)
  | .validate => .command (cmdWord 5 0)
  | .reserved6 => .command (cmdWord 6 0)
  | .reserved7 => .command (cmdWord 7 0)
  | .sig => .record signatureBytes
  | .chunk length typ data stored => .record (chunkBytes length typ data stored)
  | .chunkTerm length data stored => .record (chunkBytes length p.terminator data stored)

/-! ## Codes of results -/

/-- RES_KIND as its 2 bits (R72). -/
def ResKind.code : ResKind → BitVec 2
  | .allValid => 0
  | .notThisFormat => 1
  | .mismatch => 2
  | .truncated => 3

/-- RES_FIELD as its 3 bits (R73). -/
def ResField.code : ResField → BitVec 3
  | .none => 0
  | .signature => 1
  | .length => 2
  | .typ => 3
  | .data => 4
  | .crc => 5

/-! ## Words as the opcode table numbers them -/

/-- The `n` low bytes of a number, most significant first: the table numbers a record's bits with its first byte most
significant ("first byte most significant in match/mask"; log entry 12). -/
def bigEndianBytes : Nat → Nat → List Byte
  | 0, _ => []
  | n + 1, w => BitVec.ofNat 8 (w >>> (8 * n)) :: bigEndianBytes n w

/-- The bytes of a chunk record whose first bytes are given, the missing ones zero: 12 bytes and as many more as its length
field says (R68). -/
def zeroFilledChunk (bs : List Byte) : List Byte :=
  let head := bs ++ List.replicate (4 - bs.length) 0#8
  head ++ List.replicate (12 + (be32Of (head.take 4)).toNat - head.length) 0#8

/-- The bytes of the record that `nbits` bits numbered by the table stand for: 64 bits are the signature row, 32 bits the type
field over which the table gives the two chunk rows their match (the record's other bytes zero), and any other number above 16
the front of a chunk record. -/
def tableRecordBytes (nbits w : Nat) : List Byte :=
  if nbits = 64 then bigEndianBytes 8 w
  else if nbits = 32 then zeroFilledChunk (List.replicate 4 0#8 ++ bigEndianBytes 4 w)
  else zeroFilledChunk (bigEndianBytes (nbits / 8) w)

/-- The instruction of a decoded record. -/
def Decoded.instr? : Decoded → Option Instr
  | .record i _ => some i
  | .rejected _ => none

/-- What the decoder reads from an instruction whose bits are `w`: up to 16 bits are a command word, which has 11 bits (R61),
64 bits the signature record, anything else a chunk record (for the default parameters). -/
def decodeTableWord (nbits w : Nat) : Option Instr :=
  if nbits ≤ 16 then
    if w < 2 ^ 11 then some (decodeCommand (BitVec.ofNat 11 w)) else none
  else (decodeRecord {} (nbits == 64) (tableRecordBytes nbits w)).instr?

end Sys2Proof
end

