-- ==== Sys2Proof/Machine/State.lean ====
section
/-! DEFINITION. The state of the block: every item of spec/10_state.md R10 and the written bits of R30, then the model's own
fields (parameters, byte source, host actions), and the state after reset (R31). -/

namespace Sys2Proof.Machine

/-- The phase PH (R20): which field the next stream byte belongs to. -/
inductive Phase where
  | idle
  | sig
  | len
  | typ
  | dat
  | scr
  deriving DecidableEq, Repr

/-- An event record of EVT (R28, spec/30_encoding.md R74). -/
structure EvtRec where
  index : Nat
  typ : Word
  length : Word
  stored : Word
  computed : Word
  deriving DecidableEq, Repr

/-- "Written since reset", one bit per register whose reset value is unspecified (R30, R31, R32). TBL has none of its own:
it is written exactly when TBL_VALID is 1 (R23, R105; log entry 2). -/
structure Written where
  crc : Bool
  len : Bool
  typ : Bool
  scrc : Bool
  ccrc : Bool
  cnt : Bool
  tdat : Bool
  resKind : Bool
  resField : Bool
  deriving DecidableEq, Repr

/-- One action of the host, the block's environment. DESIGN CHOICE (log entry 3, safe): the coming actions stand in State as
a list, so that the step is a function of the state. -/
inductive Input where
  /-- A command word is offered on the command port until it is accepted (R61). -/
  | command (w : BitVec 11)
  /-- A byte source holding these bytes, positioned at its first, is connected (R41, R203 step 3). -/
  | connect (bytes : List Byte)
  /-- `rst` (spec/70_reset_and_hazards.md R200): it may be placed anywhere. -/
  | reset
  /-- The host does nothing for one step of the block. -/
  | pause
  /-- The host waits until BUSY = 0 (R203 step 4). -/
  | awaitIdle
  deriving DecidableEq, Repr

/-- The state. The fields up to `written` are the spec's (R10, R30); `params`, `src` and `inputs` are the model's own (R33
calls them arguments of the step relation). -/
structure State where
  /-- CRC, the running checksum (R11). -/
  crc : Word
  /-- LEN, the chunk's length (R12). -/
  len : Word
  /-- TYPE, the chunk's type, first stream byte in bits 31:24 (R13). -/
  typ : Word
  /-- SCRC, the chunk's stored checksum (R14). -/
  scrc : Word
  /-- CCRC, the computed checksum (R15). -/
  ccrc : Word
  /-- CNT, payload bytes still to come (R16). -/
  cnt : Word
  /-- IDX, the 0-based chunk index (R17). -/
  idx : Nat
  /-- TDAT, the entry last read by TBLRD (R18). -/
  tdat : Word
  /-- POS, stream bytes consumed (R19). -/
  pos : Nat
  /-- PH (R20). -/
  ph : Phase
  /-- K, the byte index within a fixed-length field (R21). -/
  k : BitVec 3
  /-- SIGOK (R22). -/
  sigok : Bool
  /-- TBL_VALID (R23). -/
  tblValid : Bool
  /-- RES_VALID (R24). -/
  resValid : Bool
  /-- RES_KIND (R25); its 2 bits are `ResKind.code`. -/
  resKind : ResKind
  /-- RES_FIELD (R26); its 3 bits are `ResField.code`. -/
  resField : ResField
  /-- TBL (R29). -/
  tbl : Vector Word 256
  /-- EVT (R28), oldest first. -/
  evt : List EvtRec
  /-- The written bits (R30). -/
  written : Written
  /-- The parameters of R4 (log entry 8). -/
  params : Params
  /-- The bytes the source has not yet given, first to last (R41; log entry 6). -/
  src : List Byte
  /-- The host's coming actions (log entry 3). -/
  inputs : List Input
  deriving DecidableEq, Repr

/-- A fault. The spec gives this block none: a run ends in an outcome, which is a state (spec/60_exceptions.md R176), and
every access is to an entry or a byte that exists (spec/20_memory.md R53). The type has no member (log entry 18). -/
inductive Fault where
  deriving DecidableEq, Repr

/-- The refusals: the closed list of spec/60_exceptions.md R185, the violated ownership of R207, and the terms of Instr that
are no record at the cursor. All are safe: the model stops where the spec gives the request no step. -/
inductive Refusal where
  /-- An instruction with no meaning yet; raised by a refused arm of exec only. Safe. -/
  | notModelled (mnemonic : String)
  /-- A command while PH differs from IDLE (R185, R204); raised by the command meanings. Safe. -/
  | busy
  /-- A command word with op 0b110 or 0b111 (R63, R185); raised by the two reserved rows. Safe. -/
  | reservedOpcode
  /-- TBLRD, CRCBYTE or VALIDATE while TBL_VALID = 0 (R185, R205). Safe. -/
  | tableNotBuilt
  /-- CRCBYTE or CRCFIN while nothing has written CRC since reset: the acceptance test `require CRC written else refuse` of
  their pseudocode (R108, R109), a row of R185's closed list (R32; decision D18). Safe. -/
  | crcUnwritten
  /-- A chunk that would raise IDX above `2^IDX_WIDTH - 1` in a finite-width realisation (R17, R185). Safe. -/
  | indexOverflow
  /-- Another byte source is connected during a run (R207, R57). Safe. -/
  | sourceNotExclusive
  /-- A record meaning where no record of that format begins (R60: records are decoded only inside a run, SIG first). Safe. -/
  | noRecordHere
  /-- A record term that the encoding does not have (R66, R69); the decoder gives none. Safe. -/
  | notARecord
  deriving DecidableEq, Repr

/-- What a step or a meaning answers. -/
abbrev Answer := Host.Outcome State Fault Refusal

/-- No register written (R31). -/
def Written.none : Written :=
  { crc := false, len := false, typ := false, scrc := false, ccrc := false, cnt := false, tdat := false
    resKind := false, resField := false }

/-- The state after reset (R31, R200). Where R31 says "unspecified" the value is 0 (DESIGN CHOICE, unsafe, log entry 1); the
source is empty and the host does nothing (DESIGN CHOICE, log entries 3 and 7). -/
def State.reset : State :=
  { crc := 0#32, len := 0#32, typ := 0#32, scrc := 0#32, ccrc := 0#32, cnt := 0#32, idx := 0, tdat := 0#32, pos := 0
    ph := .idle, k := 0#3, sigok := false, tblValid := false, resValid := false, resKind := .allValid
    resField := .none, tbl := Vector.replicate 256 0#32, evt := [], written := Written.none, params := {}, src := []
    inputs := [] }

end Sys2Proof.Machine
end

