-- ==== Sys2Proof/Machine/Flags.lean ====
section
/-! DEFINITION. The computed bits: SIGOK's next value, and the derived BUSY (spec/10_state.md R22, R27). The block has no
carry, zero, sign or overflow flag (section 4 there). -/

namespace Sys2Proof.Machine

/-- BUSY: PH differs from IDLE (R27). -/
def State.busy (s : State) : Bool := s.ph != .idle

/-- SIGOK after the signature byte `b`: still 1 only if it was 1 and `b` is `SIGNATURE[K]` (R140). -/
def State.sigokAfter (s : State) (b : Byte) : Bool := s.sigok && b == signatureByte s.k

/-- Whether `IDX` may take the value `n`: always at the level of the rules, up to `2^IDX_WIDTH - 1` in a realisation
(R17). -/
def holdsIndex (p : Params) (n : Nat) : Bool :=
  match p.idxWidth with
  | none => true
  | some w => n < 2 ^ w

end Sys2Proof.Machine
end

