-- ==== Sys2Proof/Machine/Operands.lean ====
section
/-! DEFINITION. The operand forms of the block (spec/41_chunk_validator.md R151): a table index, and a field assembled one
byte per step. -/

namespace Sys2Proof.Machine

/-- `(c ^ zext_32(b)) & 0xFF`, the index of one update: a value 0 to 255 (spec/40_crc_engine.md R103). -/
def tblIndex (c : Word) (b : Byte) : Byte := ((c ^^^ zext32 b) &&& 0xFF#32).setWidth 8

/-- `TBL[i]`: one whole entry (spec/20_memory.md R49, R53). -/
def readTbl (t : Vector Word 256) (i : Byte) : Word := t[i.toNat]'i.isLt

/-- `shiftin(R, b)` (section 3 of spec/41_chunk_validator.md, R67): the first byte of a field replaces the register. -/
def shiftin (k : BitVec 3) (r : Word) (b : Byte) : Word :=
  if k = 0#3 then zext32 b else (r <<< 8) ||| zext32 b

end Sys2Proof.Machine
end

