-- ==== Sys2Proof/Machine/Ops.lean ====
section
/-! DEFINITION. The shared operations over registers, table, trace, source and sequencer. A register that reset leaves
unspecified is written through its setter, which also sets its written bit (spec/10_state.md R30, R32). -/

namespace Sys2Proof.Machine

/-! ## Register writes -/

/-- `CRC <- v`. -/
def State.setCrc (s : State) (v : Word) : State := { s with crc := v, written := { s.written with crc := true } }

/-- `LEN <- v`. -/
def State.setLen (s : State) (v : Word) : State := { s with len := v, written := { s.written with len := true } }

/-- `TYPE <- v`. -/
def State.setTyp (s : State) (v : Word) : State := { s with typ := v, written := { s.written with typ := true } }

/-- `SCRC <- v`. -/
def State.setScrc (s : State) (v : Word) : State := { s with scrc := v, written := { s.written with scrc := true } }

/-- `CCRC <- v`. -/
def State.setCcrc (s : State) (v : Word) : State := { s with ccrc := v, written := { s.written with ccrc := true } }

/-- `CNT <- v`. -/
def State.setCnt (s : State) (v : Word) : State := { s with cnt := v, written := { s.written with cnt := true } }

/-- `TDAT <- v`. -/
def State.setTdat (s : State) (v : Word) : State := { s with tdat := v, written := { s.written with tdat := true } }

/-- `SIGOK <- v` (R22). -/
def State.setSigok (s : State) (v : Bool) : State := { s with sigok := v }

/-- `IDX <- v` (R17). -/
def State.setIdx (s : State) (v : Nat) : State := { s with idx := v }

/-! ## The environment's data -/

/-- The source holds these bytes from now on. -/
def State.setSrc (s : State) (bytes : List Byte) : State := { s with src := bytes }

/-- The host's coming actions are these from now on. -/
def State.setInputs (s : State) (inputs : List Input) : State := { s with inputs := inputs }

/-! ## The sequencer -/

/-- `K <- K + 1` (never past 7, and never past 3 in a 4-byte field: R21, R104). -/
def State.nextByte (s : State) : State := { s with k := s.k + 1#3 }

/-- `PH <- ph`, K as it is. -/
def State.setPh (s : State) (ph : Phase) : State := { s with ph := ph }

/-- `K <- 0; PH <- ph`: entry to a phase (R21). -/
def State.enter (s : State) (ph : Phase) : State := { s with ph := ph, k := 0#3 }

/-- `terminate(kind, field)` (spec/41_chunk_validator.md R146): how every outcome of a run is taken. Nothing is saved and
control goes nowhere; the block is idle and accepts commands again (spec/60_exceptions.md R176, R177: there is no return). -/
def State.terminate (s : State) (kind : ResKind) (field : ResField) : State :=
  { s with resKind := kind, resField := field, resValid := true, k := 0#3, ph := .idle
           written := { s.written with resKind := true, resField := true } }

/-! ## Table and trace -/

/-- `upd(c, b)` over a table (spec/40_crc_engine.md R103). -/
def upd (t : Vector Word 256) (c : Word) (b : Byte) : Word := readTbl t (tblIndex c b) ^^^ (c >>> 8)

/-- `CRC <- upd(CRC, b)`: one byte folded into the running value. -/
def State.foldByte (s : State) (b : Byte) : State := s.setCrc (upd s.tbl s.crc b)

/-- `emit(e)`: append to EVT (R28). -/
def State.emit (s : State) (e : EvtRec) : State := { s with evt := s.evt ++ [e] }

/-! ## The byte source -/

/-- The two answers of the source (spec/20_memory.md R41, R44). -/
inductive SrcEvent where
  | byte (b : Byte)
  | eos
  deriving DecidableEq, Repr

/-- `POS <- POS + 1`: one byte of the stream is consumed (R19). -/
def State.advance (s : State) : State := { s with pos := s.pos + 1 }

/-- `SrcNext()` (R41): the next byte is consumed, or end-of-stream leaves everything as it is. -/
def srcNext (s : State) : SrcEvent × State :=
  match s.src with
  | [] => (.eos, s)
  | b :: rest => (.byte b, (s.setSrc rest).advance)

/-! ## Acceptance of a command -/

/-- `require PH = IDLE else refuse` (R204). -/
def whenIdle (s : State) (a : Answer) : Answer := if s.busy then .refused .busy else a

/-- `require TBL_VALID = 1 else refuse` (R205). -/
def whenTable (s : State) (a : Answer) : Answer := if s.tblValid then a else .refused .tableNotBuilt

/-- `require CRC written else refuse` (spec/40_crc_engine.md R108, R109; spec/10_state.md R32): an acceptance test on the written
bit that R30 calls state of the model, and no matter of what CRC holds. -/
def whenCrcWritten (s : State) (a : Answer) : Answer := if s.written.crc then a else .refused .crcUnwritten

/-! ## Reset -/

/-- The effect of `rst` (spec/70_reset_and_hazards.md R200, R201): every item of the block's state takes its reset value. The
source stays where it is, and the host's coming actions and the parameters are not the block's. -/
def State.applyReset (s : State) : State :=
  { State.reset with params := s.params, src := s.src, inputs := s.inputs }

end Sys2Proof.Machine
end

