-- ==== Sys2Proof/Machine/Engine.lean ====
section
/-! DEFINITION. The CRC-32 engine (spec/40_crc_engine.md): the functions `build_table` and `checksum` of the contract and the
five commands BUILD, TBLRD, CRCINIT, CRCBYTE, CRCFIN. -/

namespace Sys2Proof.Machine

/-! ## The functions of the contract -/

/-- `round(a)` (R101): the low bit is tested before the shift. -/
def crcRound (a : Word) : Word := if a.getLsbD 0 then (a >>> 1) ^^^ Config.poly else a >>> 1

/-- `n` rounds. -/
def crcRounds : Nat → Word → Word
  | 0, a => a
  | n + 1, a => crcRounds n (crcRound a)

/-- `T[i]`: 8 rounds from seed `i` (R100). -/
def tableEntry (i : Byte) : Word := crcRounds Config.rounds (zext32 i)

/-- `build_table()` (R100): 256 entries, index 0 to 255. -/
def buildTable : Vector Word 256 :=
  Vector.mk ((List.range 256).map (fun i => tableEntry (BitVec.ofNat 8 i))).toArray (by simp)

/-- `checksum(T, bytes)` (R102). -/
def checksum (t : Vector Word 256) (bytes : List Byte) : Word := bytes.foldl (upd t) Config.init ^^^ Config.xorOut

/-! ## The commands -/

/-- `TBL[i] <- build_table()[i]` for every `i`, and `TBL_VALID <- 1`, in one step (R105). -/
def State.buildTbl (s : State) : State := { s with tbl := buildTable, tblValid := true }

/-- BUILD (R105). -/
def execBuild (s : State) : Answer := whenIdle s (.next s.buildTbl)

/-- TBLRD i (R106). -/
def execTblrd (i : Byte) (s : State) : Answer := whenIdle s (whenTable s (.next (s.setTdat (readTbl s.tbl i))))

/-- CRCINIT (R107): it needs no table. -/
def execCrcinit (s : State) : Answer := whenIdle s (.next (s.setCrc Config.init))

/-- CRCBYTE b (R108). -/
def execCrcbyte (b : Byte) (s : State) : Answer := whenIdle s (whenTable s (whenCrcWritten s (.next (s.foldByte b))))

/-- CRCFIN (R109): CRC is left unchanged, and no table is needed. -/
def execCrcfin (s : State) : Answer := whenIdle s (whenCrcWritten s (.next (s.setCcrc (s.crc ^^^ Config.xorOut))))

end Sys2Proof.Machine
end

