-- ==== Sys2Proof/Machine/Reserved.lean ====
section
/-! DEFINITION. The two reserved command rows (spec/30_encoding.md R63): "refused: it is never accepted, it changes no state".
In a run the reason is that a command is not accepted at all (spec/60_exceptions.md R185). -/

namespace Sys2Proof.Machine

/-- A word with op 0b110. -/
def execReserved6 (s : State) : Answer := whenIdle s (.refused .reservedOpcode)

/-- A word with op 0b111. -/
def execReserved7 (s : State) : Answer := whenIdle s (.refused .reservedOpcode)

end Sys2Proof.Machine
end

