-- ==== Sys2Proof/Machine/Validator.lean ====
section
/-! DEFINITION. The chunk-stream validator (spec/41_chunk_validator.md): the command VALIDATE, the step rules of R140 to R145,
and the records SIG, CHUNK and CHUNK.TERM as sequences of those steps. -/

namespace Sys2Proof.Machine

/-! ## The command -/

/-- The launch step (R138): nine registers keep their values, and the source is not read. -/
def State.launch (s : State) : State :=
  { s with resValid := false, evt := [], pos := 0, idx := 0, sigok := true, k := 0#3, ph := .sig }

/-- VALIDATE (R138). -/
def execValidate (s : State) : Answer := whenIdle s (whenTable s (.next s.launch))

/-! ## The step rules: one stream byte, already counted by POS -/

/-- Signature byte (R140): the verdict falls at the eighth byte only. -/
def sigByte (b : Byte) (s : State) : State :=
  let s' := s.setSigok (s.sigokAfter b)
  if s.k < 7#3 then s'.nextByte
  else if s.sigokAfter b then s'.enter .len
  else s'.terminate .notThisFormat .none

/-- Length byte (R141): the fourth starts the chunk's checksum. -/
def lenByte (b : Byte) (s : State) : State :=
  let s' := s.setLen (shiftin s.k s.len b)
  if s.k < 3#3 then s'.nextByte else (s'.setCrc Config.init).enter .typ

/-- Type byte (R142): the payload phase is skipped when LEN = 0. -/
def typByte (b : Byte) (s : State) : State :=
  let s' := (s.setTyp (shiftin s.k s.typ b)).foldByte b
  if s.k < 3#3 then s'.nextByte
  else if s.len = 0#32 then s'.enter .scr
  else (s'.setCnt s.len).enter .dat

/-- Payload byte (R143): K keeps the 0 it has in this phase. -/
def datByte (b : Byte) (s : State) : State :=
  let s' := (s.foldByte b).setCnt (s.cnt - 1#32)
  if s.cnt - 1#32 = 0#32 then s'.setPh .scr else s'

/-- The end of a chunk (R144, K = 3): the event record, then the mismatch test, then the terminator test, then the next
chunk. `stored` is the completed SCRC. In a finite-width realisation a chunk that would overflow IDX gets no step
(R17, R185; log entry 8). -/
def finishChunk (stored : Word) (s : State) : Answer :=
  let computed := s.crc ^^^ Config.xorOut
  let s' := (s.setCcrc computed).emit
    { index := s.idx, typ := s.typ, length := s.len, stored := stored, computed := computed }
  if computed ≠ stored then .next (s'.terminate .mismatch .none)
  else if s.typ = s.params.terminator then .next (s'.terminate .allValid .none)
  else if holdsIndex s.params (s.idx + 1) then .next ((s'.setIdx (s.idx + 1)).enter .len)
  else .refused .indexOverflow

/-- Stored-CRC byte (R144). -/
def scrByte (b : Byte) (s : State) : Answer :=
  let stored := shiftin s.k s.scrc b
  if s.k < 3#3 then .next (s.setScrc stored).nextByte else finishChunk stored (s.setScrc stored)

/-- The rule for a byte in the current phase; the block never reads the source outside a run (spec/20_memory.md R43). -/
def onByte (b : Byte) (s : State) : Answer :=
  match s.ph with
  | .idle => .refused .noRecordHere
  | .sig => .next (sigByte b s)
  | .len => .next (lenByte b s)
  | .typ => .next (typByte b s)
  | .dat => .next (datByte b s)
  | .scr => scrByte b s

/-- The field that end-of-stream cuts short in each phase (R145, spec/30_encoding.md R73). -/
def Phase.field : Phase → ResField
  | .idle => .none
  | .sig => .signature
  | .len => .length
  | .typ => .typ
  | .dat => .data
  | .scr => .crc

/-- End of stream (R145): POS is unchanged and nothing is compared. -/
def onEos (s : State) : State := s.terminate .truncated s.ph.field

/-- One step of a run: `SrcNext()` and the rule for the event (section 3 of spec/41_chunk_validator.md). -/
def streamEvent (s : State) : Answer :=
  match srcNext s with
  | (.byte b, s') => onByte b s'
  | (.eos, s') => .next (onEos s')

/-! ## The records -/

/-- One byte taken by the block: POS counts it and the rule for the phase applies. -/
def feedByte (b : Byte) (s : State) : Answer := onByte b s.advance

/-- The bytes of a record, one step rule each. -/
def feed : List Byte → State → Answer
  | [], s => .next s
  | b :: bs, s =>
    match feedByte b s with
    | .next s' => feed bs s'
    | .fault r => .fault r
    | .refused r => .refused r

/-- A record of format `ph` begins at the cursor (R60, R148): the phase is `ph` and no byte of its field was taken. -/
def State.atRecord (s : State) (ph : Phase) : Bool := s.ph == ph && s.k == 0#3

/-- SIG (R65, R140): the 8 signature bytes. -/
def execSig (s : State) : Answer :=
  if s.atRecord .sig then feed signatureBytes s else .refused .noRecordHere

/-- CHUNK (R66, R141 to R144). -/
def execChunk (length typ : Word) (data : List Byte) (stored : Word) (s : State) : Answer :=
  if s.atRecord .len then
    if (Instr.chunk length typ data stored).wf s.params then feed (chunkBytes length typ data stored) s
    else .refused .notARecord
  else .refused .noRecordHere

/-- CHUNK.TERM (R66, R69, R135): its type is the parameter TERMINATOR. -/
def execChunkTerm (length : Word) (data : List Byte) (stored : Word) (s : State) : Answer :=
  if s.atRecord .len then
    if (Instr.chunkTerm length data stored).wf s.params then feed (chunkBytes length s.params.terminator data stored) s
    else .refused .notARecord
  else .refused .noRecordHere

end Sys2Proof.Machine
end

