-- ==== Sys2Proof/Machine/Dispatch.lean ====
section
/-! DEFINITION. The dispatch: one arm per constructor of Instr, in the order of spec/opcode_table.json. -/

namespace Sys2Proof.Machine

def exec (i : Instr) (s : State) : Host.Outcome State Fault Refusal :=
  match i with
  | .build => Sys2Proof.Machine.execBuild s
  | .tblrd n => Sys2Proof.Machine.execTblrd n s
  | .crcinit => Sys2Proof.Machine.execCrcinit s
  | .crcbyte b => Sys2Proof.Machine.execCrcbyte b s
  | .crcfin => Sys2Proof.Machine.execCrcfin s
  | .validate => Sys2Proof.Machine.execValidate s
  | .reserved6 => Sys2Proof.Machine.execReserved6 s
  | .reserved7 => Sys2Proof.Machine.execReserved7 s
  | .sig => Sys2Proof.Machine.execSig s
  | .chunk length typ data stored => Sys2Proof.Machine.execChunk length typ data stored s
  | .chunkTerm length data stored => Sys2Proof.Machine.execChunkTerm length data stored s

end Sys2Proof.Machine
end

