-- ==== Sys2Proof/Machine/Fetch.lean ====
section
/-! DEFINITION. What the block does when it moves by itself, the host's action on the byte source, and where an instruction is
placed so that the block runs it next. -/

namespace Sys2Proof.Machine

/-- The block's own move: in a run, one stream event; otherwise it waits for a command and keeps all state
(spec/60_exceptions.md R186; log entry 9). -/
def blockMoves (s : State) : Answer := if s.busy then streamEvent s else .next s

/-- The host connects a byte source at its first byte (R41, R203 step 3); during a run this breaks the exclusive ownership
(spec/70_reset_and_hazards.md R207). -/
def connectSource (bytes : List Byte) (s : State) : Answer :=
  if s.busy then .refused .sourceNotExclusive else .next (s.setSrc bytes)

/-- A host that waits for BUSY = 0 lets the block move until it is idle (R203 step 4). -/
def awaitIdle (waiting done : State) : Answer := if waiting.busy then blockMoves waiting else .next done

/-- Places a command word where an idle block takes its next one: first among the host's actions. -/
def placeCommand (w : BitVec 11) (s : State) : State :=
  { s with ph := .idle, inputs := .command w :: s.inputs }

/-- Places a record where a run takes its next bytes: a run at the start of a record of this format, whose table is built (a
run is accepted only then, R138), with no host action in its way (log entry 13). -/
def placeRecord (first : Bool) (bytes : List Byte) (s : State) : State :=
  { s.buildTbl with ph := if first then .sig else .len, k := 0#3, sigok := true, src := bytes, inputs := [] }

/-- Places the instruction whose bits are `w`, as `decodeTableWord` reads them. -/
def placeTableWord (nbits w : Nat) (s : State) : State :=
  if nbits ≤ 16 then placeCommand (BitVec.ofNat 11 w) s
  else placeRecord (nbits == 64) (tableRecordBytes nbits w) s

end Sys2Proof.Machine
end

