-- ==== Sys2Proof/Machine/Step.lean ====
section
/-! DEFINITION. One step of the block (spec/10_state.md R33, spec/20_memory.md R54): one accepted command, one stream event, or
one action of the host. -/

namespace Sys2Proof.Machine

/-- One step. The head of `inputs` says what the host does now. A command word is taken only in PH = IDLE; in a run the block
goes on with the stream and the word stays offered, `cmd_ready` being 0 (R61, R204; log entry 4). -/
def step (s : State) : Host.Outcome State Fault Refusal :=
  match s.inputs with
  | [] => blockMoves s
  | .command w :: rest => if s.busy then blockMoves s else exec (decodeCommand w) (s.setInputs rest)
  | .connect bytes :: rest => connectSource bytes (s.setInputs rest)
  | .reset :: rest => .next (s.setInputs rest).applyReset
  | .pause :: rest => blockMoves (s.setInputs rest)
  | .awaitIdle :: rest => awaitIdle s (s.setInputs rest)

/-- `s` with the instruction whose bits are `w` placed where the block takes its next one: a command word first among the
host's actions, a record at the front of the source in a run at the start of such a record. -/
def State.withFetchWord (s : State) (nbits w : Nat) : State := placeTableWord nbits w s

end Sys2Proof.Machine
end

