-- ==== Sys2Proof/Machine/Assembler.lean ====
section
/-! DEFINITION. The spec's own way of writing commands and streams (spec/30_encoding.md R75 to R77); it has no meaning to the
hardware. -/

namespace Sys2Proof.Machine

/-- The pseudo-instruction `CRC <bytes>` (R77). -/
def crcExpansion (bytes : List Byte) : List Instr := .crcinit :: bytes.map .crcbyte ++ [.crcfin]

/-- The host's actions that offer these commands in order, each in the encoding of R75; a record is no command. -/
def offer (p : Params) (is : List Instr) : List Input :=
  is.filterMap fun i =>
    match encode p i with
    | .command w => some (.command w)
    | .record _ => none

/-- The items of a written stream (R76). -/
inductive StreamItem where
  /-- `SIG`. -/
  | sig
  /-- `CHUNK "<tttt>" [<hex bytes>]`, with the correct checksum. -/
  | chunk (typ : Word) (data : List Byte)
  /-- `CHUNK ... crc=0x<8 hex digits>`. -/
  | chunkCrc (typ : Word) (data : List Byte) (crc : Word)
  /-- `BYTES <hex bytes>`. -/
  | bytes (bs : List Byte)
  deriving DecidableEq, Repr

/-- The bytes an item stands for (R76). -/
def StreamItem.toBytes : StreamItem → List Byte
  | .sig => signatureBytes
  | .chunk typ data =>
    chunkBytes (BitVec.ofNat 32 data.length) typ data (checksum buildTable (be32Bytes typ ++ data))
  | .chunkCrc typ data crc => chunkBytes (BitVec.ofNat 32 data.length) typ data crc
  | .bytes bs => bs

/-- The bytes of a written stream; the end of the list is end-of-stream (R76). -/
def streamOf (items : List StreamItem) : List Byte := items.flatMap StreamItem.toBytes

end Sys2Proof.Machine
end

