-- ==== Sys2Proof/Machine/Contract.lean ====
section
/-! DEFINITION. The functions of the source's contract (spec/41_chunk_validator.md R130 to R132, spec/20_memory.md R42): what a
run returns, as opposed to the states it passes through. R147 says that the two levels agree. -/

namespace Sys2Proof.Machine

/-- What a read of the stream gives: the bytes, or failure; and what is left of the stream (R42). -/
inductive SrcRead where
  | bytes (r rest : List Byte)
  | fail (rest : List Byte)
  deriving DecidableEq, Repr

/-- `SrcRead(n)` (R42): all `n` bytes, or a failure that has consumed every byte that was left. -/
def srcRead (n : Nat) (bs : List Byte) : SrcRead :=
  if n ≤ bs.length then .bytes (bs.take n) (bs.drop n) else .fail []

/-- `SrcNext()` up to `n` times, stopping at the first `eos` (R42): the bytes, or nothing; and the state reached. -/
def srcNexts : Nat → State → Option (List Byte) × State
  | 0, s => (some [], s)
  | n + 1, s =>
    match srcNext s with
    | (.eos, s') => (none, s')
    | (.byte b, s') =>
      match srcNexts n s' with
      | (some bs, t) => (some (b :: bs), t)
      | (none, t) => (none, t)

/-- The three results of `verify_signature` (R130). -/
inductive SigVerdict where
  | matches
  | differs
  | readFailure
  deriving DecidableEq, Repr

/-- `verify_signature` (R130): all 8 bytes are read before any comparison decides. -/
def verifySignature (bs : List Byte) : SigVerdict × List Byte :=
  match srcRead 8 bs with
  | .fail rest => (.readFailure, rest)
  | .bytes r rest => (if r = signatureBytes then .matches else .differs, rest)

/-- The Chunk record of the contract (R131, spec/10_state.md R34); `typ` is its four raw bytes. -/
structure Chunk where
  length : Word
  typ : List Byte
  data : List Byte
  stored : Word
  deriving DecidableEq, Repr

/-- What `read_chunk` gives, and what is left of the stream. -/
inductive ChunkRead where
  | chunk (c : Chunk) (rest : List Byte)
  | truncated (field : ResField) (rest : List Byte)
  deriving DecidableEq, Repr

/-- `read_chunk` (R131): four reads in this order. -/
def readChunk (bs : List Byte) : ChunkRead :=
  match srcRead 4 bs with
  | .fail rest => .truncated .length rest
  | .bytes l bs1 =>
    match srcRead 4 bs1 with
    | .fail rest => .truncated .typ rest
    | .bytes t bs2 =>
      match srcRead (be32Of l).toNat bs2 with
      | .fail rest => .truncated .data rest
      | .bytes d bs3 =>
        match srcRead 4 bs3 with
        | .fail rest => .truncated .crc rest
        | .bytes c rest => .chunk { length := be32Of l, typ := t, data := d, stored := be32Of c } rest

/-- What a run returns (R132, spec/60_exceptions.md R170): the four outcomes with their payloads. -/
inductive RunOutcome where
  | allValid
  | notThisFormat
  | mismatch (chunkType expected actual : Word)
  | truncated (index : Nat) (field : ResField)
  deriving DecidableEq, Repr

/-- A run at the level of the functions: its outcome, the chunk index it ends with, the stream bytes it left unread, and what
it emitted (R132, R149). -/
structure RunReport where
  outcome : RunOutcome
  index : Nat
  unread : List Byte
  evt : List EvtRec
  deriving DecidableEq, Repr

/-- The loop of `validate_stream` (R132, step 2). `fuel` bounds the number of chunks; a stream of `n` bytes holds fewer than
`n + 1` chunks (R137), and `none` says that the bound was too small. -/
def validateLoop (t : Vector Word 256) (terminator : Word) : Nat → Nat → List EvtRec → List Byte → Option RunReport
  | 0, _, _, _ => none
  | fuel + 1, index, evt, bs =>
    match readChunk bs with
    | .truncated f rest => some { outcome := .truncated index f, index := index, unread := rest, evt := evt }
    | .chunk c rest =>
      let computed := checksum t (c.typ ++ c.data)
      let evt' := evt ++ [{ index := index, typ := be32Of c.typ, length := c.length, stored := c.stored, computed := computed }]
      if computed ≠ c.stored then
        some { outcome := .mismatch (be32Of c.typ) c.stored computed, index := index, unread := rest, evt := evt' }
      else if be32Of c.typ = terminator then
        some { outcome := .allValid, index := index, unread := rest, evt := evt' }
      else validateLoop t terminator fuel (index + 1) evt' rest

/-- `validate_stream` (R132). A short signature is Truncated, not NotThisFormat (spec/90_conflicts.md C1). -/
def validateStream (t : Vector Word 256) (terminator : Word) (bs : List Byte) : Option RunReport :=
  match verifySignature bs with
  | (.readFailure, rest) => some { outcome := .truncated 0 .signature, index := 0, unread := rest, evt := [] }
  | (.differs, rest) => some { outcome := .notThisFormat, index := 0, unread := rest, evt := [] }
  | (.matches, rest) => validateLoop t terminator (bs.length + 1) 0 [] rest

end Sys2Proof.Machine
end

