-- ==== Sys2Proof/Machine/Observe.lean ====
section
/-! DEFINITION. What the host sees (spec/10_state.md R35, spec/60_exceptions.md R176): the read-only outputs, the ready outputs
of the two ports, and the structured result. A register that nothing has written since reset shows no value (R32). -/

namespace Sys2Proof.Machine

/-- A register's output: its value once something has written it (R32, U2). -/
def shown {α : Type} (written : Bool) (v : α) : Option α := if written then some v else none

/-- The read-only outputs: the items R10 marks visible, and BUSY (R35). -/
structure HostView where
  busy : Bool
  tblValid : Bool
  resValid : Bool
  sigok : Bool
  idx : Nat
  pos : Nat
  crc : Option Word
  len : Option Word
  typ : Option Word
  scrc : Option Word
  ccrc : Option Word
  cnt : Option Word
  tdat : Option Word
  resKind : Option (BitVec 2)
  resField : Option (BitVec 3)
  evt : List EvtRec
  deriving DecidableEq, Repr

/-- The outputs in a state (R35). -/
def State.view (s : State) : HostView :=
  { busy := s.busy, tblValid := s.tblValid, resValid := s.resValid, sigok := s.sigok, idx := s.idx, pos := s.pos
    crc := shown s.written.crc s.crc, len := shown s.written.len s.len, typ := shown s.written.typ s.typ
    scrc := shown s.written.scrc s.scrc, ccrc := shown s.written.ccrc s.ccrc, cnt := shown s.written.cnt s.cnt
    tdat := shown s.written.tdat s.tdat, resKind := shown s.written.resKind s.resKind.code
    resField := shown s.written.resField s.resField.code, evt := s.evt }

/-- `cmd_ready` for the word on the command port: the block would accept it (R61, R62, R63, R185). -/
def State.cmdReady (s : State) (w : BitVec 11) : Bool :=
  !s.busy &&
    match decodeCommand w with
    | .build => true
    | .tblrd _ => s.tblValid
    | .crcinit => true
    | .crcbyte _ => s.tblValid && s.written.crc
    | .crcfin => s.written.crc
    | .validate => s.tblValid
    | .reserved6 => false
    | .reserved7 => false
    | .sig => false
    | .chunk _ _ _ _ => false
    | .chunkTerm _ _ _ => false

/-- `src_ready`: raised only while PH differs from IDLE (spec/20_memory.md R45). -/
def State.srcReady (s : State) : Bool := s.busy

/-- The result of the last finished run, read when BUSY = 0 and RES_VALID = 1, with the payload the outcome has (R35, R170,
R173). After a direct engine command `actual` is no longer the run's (spec/70_reset_and_hazards.md R206). -/
def State.result (s : State) : Option RunOutcome :=
  if s.busy || !s.resValid then none
  else match s.resKind with
    | .allValid => some .allValid
    | .notThisFormat => some .notThisFormat
    | .mismatch => some (.mismatch s.typ s.scrc s.ccrc)
    | .truncated => some (.truncated s.idx s.resField)

/-- An event record as the port carries it: `{index, type, length, stored, computed}`, the index in `w` bits (R74). -/
def EvtRec.port (w : Nat) (e : EvtRec) : BitVec (w + 32 + 32 + 32 + 32) :=
  BitVec.ofNat w e.index ++ e.typ ++ e.length ++ e.stored ++ e.computed

end Sys2Proof.Machine
end

