-- ==== Sys2Proof/Safety.lean ====
section
/-! DEFINITION. What a sound state of the block is: the relations between registers that the step rules keep
(spec/10_state.md R16, R21 to R24, R32; spec/41_chunk_validator.md R149, R150; spec/60_exceptions.md R176). -/

namespace Sys2Proof.Machine

/-- The phases in which a chunk record is being read (R20). -/
def Phase.inChunk : Phase → Bool
  | .idle => false
  | .sig => false
  | .len => true
  | .typ => true
  | .dat => true
  | .scr => true

/-- Bytes of the current chunk record already consumed (R66, R20, R21). -/
def State.recordOffset (s : State) : Nat :=
  match s.ph with
  | .idle => 0
  | .sig => 0
  | .len => s.k.toNat
  | .typ => 4 + s.k.toNat
  | .dat => 8 + (s.len.toNat - s.cnt.toNat)
  | .scr => 8 + s.len.toNat + s.k.toNat

/-- The length of the stream up to the last completely read chunk: the signature and 12 + length bytes a chunk (R53, R150). -/
def State.chunksEnd (s : State) : Nat := 8 + (s.evt.map fun e => 12 + e.length.toNat).sum

/-- How far a finished run had come, by outcome (R149, R150, R170, R172). -/
def State.outcomeFits (s : State) : Prop :=
  match s.resKind with
  | .allValid => s.resField = .none ∧ s.sigok = true ∧ s.evt.length = s.idx + 1 ∧ s.pos = s.chunksEnd
  | .notThisFormat => s.resField = .none ∧ s.sigok = false ∧ s.idx = 0 ∧ s.evt = [] ∧ s.pos = 8
  | .mismatch => s.resField = .none ∧ s.sigok = true ∧ s.evt.length = s.idx + 1 ∧ s.pos = s.chunksEnd
  | .truncated =>
    s.resField ≠ .none ∧ s.evt.length = s.idx ∧
      (s.resField = .signature → s.idx = 0 ∧ s.pos < 8) ∧
      (s.resField ≠ .signature → s.sigok = true ∧ s.chunksEnd ≤ s.pos)

/-- The invariant of the block: it holds at reset and every step keeps it. -/
structure State.Inv (s : State) : Prop where
  /-- TBL_VALID = 1 means that TBL holds `build_table()` (R10, R23). -/
  table_built : s.tblValid = true → s.tbl = buildTable
  /-- A run has its table (R205). -/
  run_has_table : s.ph ≠ .idle → s.tblValid = true
  /-- No result is shown during a run (R24). -/
  run_has_no_result : s.ph ≠ .idle → s.resValid = false
  /-- K is 0 where it does not count (R21, R146). -/
  k_rests : s.ph = .idle ∨ s.ph = .dat → s.k = 0#3
  /-- K counts 0 to 3 in a 4-byte field (R21). -/
  k_in_field : s.ph = .len ∨ s.ph = .typ ∨ s.ph = .scr → s.k.toNat ≤ 3
  /-- In the payload phase CNT is at least 1 and at most LEN (R16, R143). -/
  payload_left : s.ph = .dat → 1 ≤ s.cnt.toNat ∧ s.cnt.toNat ≤ s.len.toNat
  /-- In the signature phase POS is K, no chunk was read, and nothing was emitted (R138, R140). -/
  sig_is_first : s.ph = .sig → s.pos = s.k.toNat ∧ s.idx = 0 ∧ s.evt = []
  /-- A chunk is read only after a correct signature (R140). -/
  chunk_after_signature : s.ph.inChunk = true → s.sigok = true
  /-- In a chunk, one record was emitted per chunk before it, and POS is exact (R149, R150). -/
  chunk_position : s.ph.inChunk = true → s.evt.length = s.idx ∧ s.pos = s.chunksEnd + s.recordOffset
  /-- IDX fits its width (R17). -/
  index_held : holdsIndex s.params s.idx = true
  /-- The records are numbered from 0 (R17, R28). -/
  evt_numbered : ∀ n, (h : n < s.evt.length) → (s.evt[n]'h).index = n
  /-- Every record but the last of a finished run agrees and is no terminator (R149, R136). -/
  evt_verified : ∀ e ∈ (if s.ph = .idle then s.evt.dropLast else s.evt), e.stored = e.computed ∧ e.typ ≠ s.params.terminator
  /-- A run reads no register it has not written (R32). -/
  run_reads_written :
    (s.ph = .typ ∨ s.ph = .dat ∨ s.ph = .scr → s.written.crc = true ∧ s.written.len = true) ∧
      (s.ph = .dat ∨ s.ph = .scr → s.written.typ = true) ∧ (s.ph = .dat → s.written.cnt = true) ∧
      (s.ph = .len → s.k ≠ 0#3 → s.written.len = true) ∧ (s.ph = .typ → s.k ≠ 0#3 → s.written.typ = true) ∧
      (s.ph = .scr → s.k ≠ 0#3 → s.written.scrc = true)
  /-- A shown result was written, and fits the run it describes (R24, R176). -/
  result_fits : s.resValid = true → s.written.resKind = true ∧ s.written.resField = true ∧ s.outcomeFits

end Sys2Proof.Machine
end

