-- ==== Sys2Proof/Certificates/Slice0/Obligations.lean ====
section
/-! DEFINITION. The statements for the provers, from the numbered rules of spec/. An answer written as one whole record is at once
the result, the frame (every field not named keeps its value) and the completion of the instruction. -/

open Sys2Proof Sys2Proof.Machine

/-! ## Reset (spec/10_state.md, spec/70_reset_and_hazards.md) -/

/-- R31: the state after reset; "unspecified" means unwritten, and the table is unreadable. -/
def Obligations.ResetLeavesTheListedValues : Prop :=
  State.reset.ph = .idle ∧ State.reset.k = 0#3 ∧ State.reset.pos = 0 ∧ State.reset.idx = 0 ∧
    State.reset.sigok = false ∧ State.reset.tblValid = false ∧ State.reset.resValid = false ∧ State.reset.evt = [] ∧
    State.reset.written = Written.none ∧
    (∀ i, exec (.tblrd i) State.reset = .refused .tableNotBuilt)

/-- R200 and R201, for `rst` in any state: the listed items take their reset values, every register left unspecified is
unwritten, no outcome is shown, and the source stays where it is. -/
def Obligations.ResetMayComeAtAnyTime : Prop :=
  ∀ (s : State) (rest : List Input), s.inputs = .reset :: rest →
    ∃ t, step s = .next t ∧ t.ph = .idle ∧ t.k = 0#3 ∧ t.pos = 0 ∧ t.idx = 0 ∧ t.sigok = false ∧ t.tblValid = false ∧
      t.resValid = false ∧ t.evt = [] ∧ t.written = Written.none ∧ t.src = s.src ∧ t.params = s.params ∧ t.inputs = rest

/-! ## The engine's functions (spec/40_crc_engine.md R100 to R104, R113, R114) -/

/-- R101: one round, with its three examples. -/
def Obligations.RoundTestsTheLowBitThenShifts : Prop :=
  (∀ a : Word, a.getLsbD 0 = true → crcRound a = (a >>> 1) ^^^ 0xEDB88320#32) ∧
    (∀ a : Word, a.getLsbD 0 = false → crcRound a = a >>> 1) ∧
    crcRound 0x00000001#32 = 0xEDB88320#32 ∧ crcRound 0xEDB88320#32 = 0x76DC4190#32 ∧
    crcRound 0x00000080#32 = 0x00000040#32

/-- R100: every entry of the table is eight rounds from its index. -/
def Obligations.TableEntryIsEightRoundsOfItsIndex : Prop :=
  ∀ i : Byte, buildTable[i.toNat]'i.isLt =
    crcRound (crcRound (crcRound (crcRound (crcRound (crcRound (crcRound (crcRound (zext32 i))))))))

/-- R113: the listing of the spec, row by row; entry `8r + j` is the `j`-th of row `r`. -/
def Obligations.TableIsTheListing : Prop :=
  buildTable.toList =
    [0x00000000#32, 0x77073096#32, 0xEE0E612C#32, 0x990951BA#32, 0x076DC419#32, 0x706AF48F#32, 0xE963A535#32, 0x9E6495A3#32] ++
    [0x0EDB8832#32, 0x79DCB8A4#32, 0xE0D5E91E#32, 0x97D2D988#32, 0x09B64C2B#32, 0x7EB17CBD#32, 0xE7B82D07#32, 0x90BF1D91#32] ++
    [0x1DB71064#32, 0x6AB020F2#32, 0xF3B97148#32, 0x84BE41DE#32, 0x1ADAD47D#32, 0x6DDDE4EB#32, 0xF4D4B551#32, 0x83D385C7#32] ++
    [0x136C9856#32, 0x646BA8C0#32, 0xFD62F97A#32, 0x8A65C9EC#32, 0x14015C4F#32, 0x63066CD9#32, 0xFA0F3D63#32, 0x8D080DF5#32] ++
    [0x3B6E20C8#32, 0x4C69105E#32, 0xD56041E4#32, 0xA2677172#32, 0x3C03E4D1#32, 0x4B04D447#32, 0xD20D85FD#32, 0xA50AB56B#32] ++
    [0x35B5A8FA#32, 0x42B2986C#32, 0xDBBBC9D6#32, 0xACBCF940#32, 0x32D86CE3#32, 0x45DF5C75#32, 0xDCD60DCF#32, 0xABD13D59#32] ++
    [0x26D930AC#32, 0x51DE003A#32, 0xC8D75180#32, 0xBFD06116#32, 0x21B4F4B5#32, 0x56B3C423#32, 0xCFBA9599#32, 0xB8BDA50F#32] ++
    [0x2802B89E#32, 0x5F058808#32, 0xC60CD9B2#32, 0xB10BE924#32, 0x2F6F7C87#32, 0x58684C11#32, 0xC1611DAB#32, 0xB6662D3D#32] ++
    [0x76DC4190#32, 0x01DB7106#32, 0x98D220BC#32, 0xEFD5102A#32, 0x71B18589#32, 0x06B6B51F#32, 0x9FBFE4A5#32, 0xE8B8D433#32] ++
    [0x7807C9A2#32, 0x0F00F934#32, 0x9609A88E#32, 0xE10E9818#32, 0x7F6A0DBB#32, 0x086D3D2D#32, 0x91646C97#32, 0xE6635C01#32] ++
    [0x6B6B51F4#32, 0x1C6C6162#32, 0x856530D8#32, 0xF262004E#32, 0x6C0695ED#32, 0x1B01A57B#32, 0x8208F4C1#32, 0xF50FC457#32] ++
    [0x65B0D9C6#32, 0x12B7E950#32, 0x8BBEB8EA#32, 0xFCB9887C#32, 0x62DD1DDF#32, 0x15DA2D49#32, 0x8CD37CF3#32, 0xFBD44C65#32] ++
    [0x4DB26158#32, 0x3AB551CE#32, 0xA3BC0074#32, 0xD4BB30E2#32, 0x4ADFA541#32, 0x3DD895D7#32, 0xA4D1C46D#32, 0xD3D6F4FB#32] ++
    [0x4369E96A#32, 0x346ED9FC#32, 0xAD678846#32, 0xDA60B8D0#32, 0x44042D73#32, 0x33031DE5#32, 0xAA0A4C5F#32, 0xDD0D7CC9#32] ++
    [0x5005713C#32, 0x270241AA#32, 0xBE0B1010#32, 0xC90C2086#32, 0x5768B525#32, 0x206F85B3#32, 0xB966D409#32, 0xCE61E49F#32] ++
    [0x5EDEF90E#32, 0x29D9C998#32, 0xB0D09822#32, 0xC7D7A8B4#32, 0x59B33D17#32, 0x2EB40D81#32, 0xB7BD5C3B#32, 0xC0BA6CAD#32] ++
    [0xEDB88320#32, 0x9ABFB3B6#32, 0x03B6E20C#32, 0x74B1D29A#32, 0xEAD54739#32, 0x9DD277AF#32, 0x04DB2615#32, 0x73DC1683#32] ++
    [0xE3630B12#32, 0x94643B84#32, 0x0D6D6A3E#32, 0x7A6A5AA8#32, 0xE40ECF0B#32, 0x9309FF9D#32, 0x0A00AE27#32, 0x7D079EB1#32] ++
    [0xF00F9344#32, 0x8708A3D2#32, 0x1E01F268#32, 0x6906C2FE#32, 0xF762575D#32, 0x806567CB#32, 0x196C3671#32, 0x6E6B06E7#32] ++
    [0xFED41B76#32, 0x89D32BE0#32, 0x10DA7A5A#32, 0x67DD4ACC#32, 0xF9B9DF6F#32, 0x8EBEEFF9#32, 0x17B7BE43#32, 0x60B08ED5#32] ++
    [0xD6D6A3E8#32, 0xA1D1937E#32, 0x38D8C2C4#32, 0x4FDFF252#32, 0xD1BB67F1#32, 0xA6BC5767#32, 0x3FB506DD#32, 0x48B2364B#32] ++
    [0xD80D2BDA#32, 0xAF0A1B4C#32, 0x36034AF6#32, 0x41047A60#32, 0xDF60EFC3#32, 0xA867DF55#32, 0x316E8EEF#32, 0x4669BE79#32] ++
    [0xCB61B38C#32, 0xBC66831A#32, 0x256FD2A0#32, 0x5268E236#32, 0xCC0C7795#32, 0xBB0B4703#32, 0x220216B9#32, 0x5505262F#32] ++
    [0xC5BA3BBE#32, 0xB2BD0B28#32, 0x2BB45A92#32, 0x5CB36A04#32, 0xC2D7FFA7#32, 0xB5D0CF31#32, 0x2CD99E8B#32, 0x5BDEAE1D#32] ++
    [0x9B64C2B0#32, 0xEC63F226#32, 0x756AA39C#32, 0x026D930A#32, 0x9C0906A9#32, 0xEB0E363F#32, 0x72076785#32, 0x05005713#32] ++
    [0x95BF4A82#32, 0xE2B87A14#32, 0x7BB12BAE#32, 0x0CB61B38#32, 0x92D28E9B#32, 0xE5D5BE0D#32, 0x7CDCEFB7#32, 0x0BDBDF21#32] ++
    [0x86D3D2D4#32, 0xF1D4E242#32, 0x68DDB3F8#32, 0x1FDA836E#32, 0x81BE16CD#32, 0xF6B9265B#32, 0x6FB077E1#32, 0x18B74777#32] ++
    [0x88085AE6#32, 0xFF0F6A70#32, 0x66063BCA#32, 0x11010B5C#32, 0x8F659EFF#32, 0xF862AE69#32, 0x616BFFD3#32, 0x166CCF45#32] ++
    [0xA00AE278#32, 0xD70DD2EE#32, 0x4E048354#32, 0x3903B3C2#32, 0xA7672661#32, 0xD06016F7#32, 0x4969474D#32, 0x3E6E77DB#32] ++
    [0xAED16A4A#32, 0xD9D65ADC#32, 0x40DF0B66#32, 0x37D83BF0#32, 0xA9BCAE53#32, 0xDEBB9EC5#32, 0x47B2CF7F#32, 0x30B5FFE9#32] ++
    [0xBDBDF21C#32, 0xCABAC28A#32, 0x53B39330#32, 0x24B4A3A6#32, 0xBAD03605#32, 0xCDD70693#32, 0x54DE5729#32, 0x23D967BF#32] ++
    [0xB3667A2E#32, 0xC4614AB8#32, 0x5D681B02#32, 0x2A6F2B94#32, 0xB40BBE37#32, 0xC30C8EA1#32, 0x5A05DF1B#32, 0x2D02EF8D#32]

/-- R114: T[0], T[0x80], linearity over XOR, the eight determining entries, and distinctness. -/
def Obligations.TableIsLinearAndItsEntriesDiffer : Prop :=
  readTbl buildTable 0x00#8 = 0x00000000#32 ∧
    (∀ i j : Byte, readTbl buildTable (i ^^^ j) = readTbl buildTable i ^^^ readTbl buildTable j) ∧
    readTbl buildTable 0x01#8 = 0x77073096#32 ∧ readTbl buildTable 0x02#8 = 0xEE0E612C#32 ∧
    readTbl buildTable 0x04#8 = 0x076DC419#32 ∧ readTbl buildTable 0x08#8 = 0x0EDB8832#32 ∧
    readTbl buildTable 0x10#8 = 0x1DB71064#32 ∧ readTbl buildTable 0x20#8 = 0x3B6E20C8#32 ∧
    readTbl buildTable 0x40#8 = 0x76DC4190#32 ∧ readTbl buildTable 0x80#8 = 0xEDB88320#32 ∧
    (∀ i j : Byte, readTbl buildTable i = readTbl buildTable j → i = j)

/-- R103: one update reads one entry, whose index is the low byte of `c` XORed with `b`; the high byte of the result is the
entry's. -/
def Obligations.UpdateReadsOneEntry : Prop :=
  ∀ (t : Vector Word 256) (c : Word) (b : Byte),
    (∀ h : ((c ^^^ zext32 b) &&& 0xFF#32).toNat < 256,
      upd t c b = t[((c ^^^ zext32 b) &&& 0xFF#32).toNat]'h ^^^ (c >>> 8)) ∧
    ((c ^^^ zext32 b) &&& 0xFF#32).toNat = (c.extractLsb' 0 8 ^^^ b).toNat ∧
    (upd t c b).extractLsb' 24 8 = (readTbl t (c.extractLsb' 0 8 ^^^ b)).extractLsb' 24 8

/-- R102: the checksum is the left fold of the update between the two XORs, with the two values the rule gives. -/
def Obligations.ChecksumFoldsBytesInOrder : Prop :=
  (∀ t : Vector Word 256, checksum t [] = 0x00000000#32) ∧
    (∀ (t : Vector Word 256) (bs : List Byte) (b : Byte),
      checksum t (bs ++ [b]) = upd t (checksum t bs ^^^ 0xFFFFFFFF#32) b ^^^ 0xFFFFFFFF#32) ∧
    checksum buildTable [0x31#8, 0x32#8, 0x33#8, 0x34#8, 0x35#8, 0x36#8, 0x37#8, 0x38#8, 0x39#8] = 0xCBF43926#32

/-- From R114 (distinct entries) and R103: two byte sequences of one length that differ in exactly one byte have different
checksums; so a single flipped bit in `type` or `data` never passes the comparison (the general-knowledge remark of R173,
which the spec's G3 asks to treat as a property to be proved). -/
def Obligations.OneChangedByteChangesTheChecksum : Prop :=
  ∀ (front back : List Byte) (b b' : Byte), b ≠ b' →
    checksum buildTable (front ++ b :: back) ≠ checksum buildTable (front ++ b' :: back)

/-! ## The engine's commands (spec/40_crc_engine.md R105 to R112) -/

/-- R105: BUILD; its encoding with any `arg`, its refusal, its whole effect, idempotence, that no other instruction changes TBL
or TBL_VALID, the rule's example. -/
def Obligations.BuildFillsTheTableInOneStep : Prop :=
  (∀ arg : Byte, decodeCommand (cmdWord 0 arg) = .build) ∧
    (∀ s : State, s.ph ≠ .idle → exec .build s = .refused .busy) ∧
    (∀ s : State, s.ph = .idle → exec .build s = .next { s with tbl := buildTable, tblValid := true }) ∧
    (∀ s : State, s.ph = .idle → s.tblValid = true → s.tbl = buildTable → exec .build s = .next s) ∧
    (∀ (i : Instr) (s t : State), i ≠ .build → exec i s = .next t → t.tbl = s.tbl ∧ t.tblValid = s.tblValid) ∧
    readTbl buildTable 0#8 = 0x00000000#32 ∧ readTbl buildTable 1#8 = 0x77073096#32 ∧
    readTbl buildTable 128#8 = 0xEDB88320#32 ∧ readTbl buildTable 255#8 = 0x2D02EF8D#32

/-- R106: TBLRD; its encoding, its two refusals, its whole effect for every index, the rule's example. -/
def Obligations.TblrdReadsOneEntry : Prop :=
  (∀ i : Byte, decodeCommand (cmdWord 1 i) = .tblrd i) ∧
    (∀ (s : State) (i : Byte), s.ph ≠ .idle → exec (.tblrd i) s = .refused .busy) ∧
    (∀ (s : State) (i : Byte), s.ph = .idle → s.tblValid = false → exec (.tblrd i) s = .refused .tableNotBuilt) ∧
    (∀ (s : State) (i : Byte), s.ph = .idle → s.tblValid = true →
      exec (.tblrd i) s =
        .next { s with tdat := s.tbl[i.toNat]'i.isLt, written := { s.written with tdat := true } }) ∧
    readTbl buildTable 0x01#8 = 0x77073096#32

/-- R107: CRCINIT; its encoding with any `arg`, its refusal, its whole effect, with or without a table. -/
def Obligations.CrcinitStartsAChecksum : Prop :=
  (∀ arg : Byte, decodeCommand (cmdWord 2 arg) = .crcinit) ∧
    (∀ s : State, s.ph ≠ .idle → exec .crcinit s = .refused .busy) ∧
    (∀ s : State, s.ph = .idle →
      exec .crcinit s = .next { s with crc := 0xFFFFFFFF#32, written := { s.written with crc := true } })

/-- R108: CRCBYTE; its encoding, its three refusals in the rule's order, its whole effect for every byte, the two examples. -/
def Obligations.CrcbyteFoldsOneByte : Prop :=
  (∀ b : Byte, decodeCommand (cmdWord 3 b) = .crcbyte b) ∧
    (∀ (s : State) (b : Byte), s.ph ≠ .idle → exec (.crcbyte b) s = .refused .busy) ∧
    (∀ (s : State) (b : Byte), s.ph = .idle → s.tblValid = false → exec (.crcbyte b) s = .refused .tableNotBuilt) ∧
    (∀ (s : State) (b : Byte), s.ph = .idle → s.tblValid = true → s.written.crc = false →
      exec (.crcbyte b) s = .refused .crcUnwritten) ∧
    (∀ (s : State) (b : Byte), s.ph = .idle → s.tblValid = true → s.written.crc = true →
      exec (.crcbyte b) s = .next { s with crc := upd s.tbl s.crc b }) ∧
    upd buildTable 0xFFFFFFFF#32 0x00#8 = 0x2DFD1072#32 ∧ upd buildTable 0xFFFFFFFF#32 0x31#8 = 0x7C231048#32

/-- R109: CRCFIN; its encoding with any `arg`, its two refusals, its whole effect (CRC is left as it is), the example. -/
def Obligations.CrcfinFinishesAChecksum : Prop :=
  (∀ arg : Byte, decodeCommand (cmdWord 4 arg) = .crcfin) ∧
    (∀ s : State, s.ph ≠ .idle → exec .crcfin s = .refused .busy) ∧
    (∀ s : State, s.ph = .idle → s.written.crc = false → exec .crcfin s = .refused .crcUnwritten) ∧
    (∀ s : State, s.ph = .idle → s.written.crc = true →
      exec .crcfin s =
        .next { s with ccrc := s.crc ^^^ 0xFFFFFFFF#32, written := { s.written with ccrc := true } }) ∧
    (0x340BC6D9#32 ^^^ 0xFFFFFFFF#32 : Word) = 0xCBF43926#32

/-- R24 and section 3 of spec/40_crc_engine.md: the frame of the five engine commands. No result register of a run changes, and
nothing but CRC, CCRC, TDAT, TBL, TBL_VALID and the written bits of CRC, CCRC and TDAT does. -/
def Obligations.EngineCommandsLeaveTheRunsRegisters : Prop :=
  ∀ (i : Instr) (s t : State),
    (i = .build ∨ (∃ n, i = .tblrd n) ∨ i = .crcinit ∨ (∃ b, i = .crcbyte b) ∨ i = .crcfin) → exec i s = .next t →
      t.resValid = s.resValid ∧ t.resKind = s.resKind ∧ t.resField = s.resField ∧ t.idx = s.idx ∧ t.pos = s.pos ∧
      t.typ = s.typ ∧ t.scrc = s.scrc ∧ t.len = s.len ∧ t.sigok = s.sigok ∧ t.evt = s.evt ∧ t.ph = s.ph ∧ t.k = s.k ∧
      t.cnt = s.cnt ∧ t.src = s.src ∧ t.params = s.params ∧ t.inputs = s.inputs ∧
      t.written.len = s.written.len ∧ t.written.typ = s.written.typ ∧ t.written.scrc = s.written.scrc ∧
      t.written.cnt = s.written.cnt ∧ t.written.resKind = s.written.resKind ∧ t.written.resField = s.written.resField ∧
      (i ≠ .crcfin → t.ccrc = s.ccrc ∧ t.written.ccrc = s.written.ccrc) ∧
      ((∀ b, i ≠ .crcbyte b) → i ≠ .crcinit → t.crc = s.crc) ∧ (i ≠ .crcinit → t.written.crc = s.written.crc) ∧
      ((∀ n, i ≠ .tblrd n) → t.tdat = s.tdat ∧ t.written.tdat = s.written.tdat) ∧
      (i ≠ .build → t.tbl = s.tbl ∧ t.tblValid = s.tblValid)

/-- R111: CRCINIT, one CRCBYTE a byte, CRCFIN, offered by the host in order (the expansion of R77), leave the checksum of the
bytes in CCRC, for every byte sequence; the whole state after them. -/
def Obligations.EngineCommandsComputeTheChecksum : Prop :=
  ∀ (s : State) (bs : List Byte), s.ph = .idle → s.tblValid = true →
    s.inputs = offer s.params (crcExpansion bs) →
      Host.Core.run Sys2Proof.core (bs.length + 2) s =
        .next { s with crc := checksum s.tbl bs ^^^ 0xFFFFFFFF#32, ccrc := checksum s.tbl bs, inputs := []
                       written := { s.written with crc := true, ccrc := true } }

/-- R112 in the hardware: from any state, in a run or not, a reset followed by BUILD restores the same TBL, and the sequence of
R111 then gives the checksum that the bytes alone determine. -/
def Obligations.ResetAndRebuildGiveTheSameChecksum : Prop :=
  ∀ (s : State) (arg : Byte) (bs : List Byte),
    s.inputs = .reset :: .command (cmdWord 0 arg) :: offer s.params (crcExpansion bs) →
      ∃ t : State, Host.Core.run Sys2Proof.core (bs.length + 4) s = .next t ∧ t.tbl = buildTable ∧ t.tblValid = true ∧
        t.ccrc = checksum buildTable bs ∧ t.written.ccrc = true ∧ t.resValid = false ∧ t.inputs = []

/-! ## Encodings (spec/30_encoding.md) -/

/-- R62: each row of the opcode map by its match under the mask 0x700; the operand is the low 8 bits. -/
def Obligations.CommandRowsFollowTheOpcodeMap : Prop :=
  ∀ w : BitVec 11,
    (decodeCommand w = .build ↔ w &&& 0x700#11 = 0x000#11) ∧
    (decodeCommand w = .tblrd (w.setWidth 8) ↔ w &&& 0x700#11 = 0x100#11) ∧
    (decodeCommand w = .crcinit ↔ w &&& 0x700#11 = 0x200#11) ∧
    (decodeCommand w = .crcbyte (w.setWidth 8) ↔ w &&& 0x700#11 = 0x300#11) ∧
    (decodeCommand w = .crcfin ↔ w &&& 0x700#11 = 0x400#11) ∧
    (decodeCommand w = .validate ↔ w &&& 0x700#11 = 0x500#11) ∧
    (decodeCommand w = .reserved6 ↔ w &&& 0x700#11 = 0x600#11) ∧
    (decodeCommand w = .reserved7 ↔ w &&& 0x700#11 = 0x700#11)

/-- R63: a word with a reserved opcode, whatever its `arg`, is refused in every state. -/
def Obligations.ReservedOpcodesAreRefused : Prop :=
  ∀ (arg : Byte) (s : State),
    decodeCommand (cmdWord 6 arg) = .reserved6 ∧ decodeCommand (cmdWord 7 arg) = .reserved7 ∧
    (s.ph = .idle → exec .reserved6 s = .refused .reservedOpcode ∧ exec .reserved7 s = .refused .reservedOpcode) ∧
    (s.ph ≠ .idle → exec .reserved6 s = .refused .busy ∧ exec .reserved7 s = .refused .busy)

/-- R64: `arg` is ignored by the four commands without an operand, and every value of it is legal in the other two. -/
def Obligations.ArgIsIgnoredWithoutAnOperand : Prop :=
  ∀ a b : Byte,
    (∀ op ∈ [0#3, 2#3, 4#3, 5#3], decodeCommand (cmdWord op a) = decodeCommand (cmdWord op b)) ∧
    decodeCommand (cmdWord 1 a) = .tblrd a ∧ decodeCommand (cmdWord 3 a) = .crcbyte a

/-- R67: four shift-in steps, at K = 0, 1, 2, 3, yield BE32 whatever the register held, and BE32 is the big-endian value; the
rule's two examples. -/
def Obligations.ShiftinAssemblesBigEndian : Prop :=
  ∀ (r : Word) (b0 b1 b2 b3 : Byte),
    shiftin 3 (shiftin 2 (shiftin 1 (shiftin 0 r b0) b1) b2) b3 = be32 b0 b1 b2 b3 ∧
    (be32 b0 b1 b2 b3).toNat = b0.toNat * 2 ^ 24 + b1.toNat * 2 ^ 16 + b2.toNat * 2 ^ 8 + b3.toNat ∧
    be32 0x00#8 0x00#8 0x00#8 0x0A#8 = 0x0000000A#32 ∧ be32 0x9B#8 0x0D#8 0x08#8 0xF1#8 = 0x9B0D08F1#32

/-- Words and bytes written out from R62, R65, R66 and R75 decode to what they stand for. -/
def Obligations.WrittenOutEncodingsDecode : Prop :=
  decodeCommand 0b000_00000000#11 = .build ∧ decodeCommand 0b001_10000000#11 = .tblrd 0x80#8 ∧
    decodeCommand 0b010_00000000#11 = .crcinit ∧ decodeCommand 0b011_00110001#11 = .crcbyte 0x31#8 ∧
    decodeCommand 0b100_00000000#11 = .crcfin ∧ decodeCommand 0b101_00000000#11 = .validate ∧
    decodeRecord {} true [0x89#8, 0x50#8, 0x4E#8, 0x47#8, 0x0D#8, 0x0A#8, 0x1A#8, 0x0A#8] = .record .sig [] ∧
    decodeRecord {} false [0x00#8, 0x00#8, 0x00#8, 0x01#8, 0x42#8, 0x43#8, 0x44#8, 0x45#8, 0x99#8, 0x12#8, 0x34#8, 0x56#8, 0x78#8] =
      .record (.chunk 1#32 0x42434445#32 [0x99#8] 0x12345678#32) [] ∧
    decodeRecord {} false [0x00#8, 0x00#8, 0x00#8, 0x00#8, 0x49#8, 0x45#8, 0x4E#8, 0x44#8, 0xAE#8, 0x42#8, 0x60#8, 0x82#8] =
      .record (.chunkTerm 0#32 [] 0xAE426082#32) []

/-- Decoding what the encoder gives returns every well-formed instruction, with every operand, for every value of the
parameters; a record is found at the front of any stream. -/
def Obligations.DecodeReturnsWhatWasEncoded : Prop :=
  ∀ (p : Params) (i : Instr), i.wf p = true →
    (∃ w, encode p i = .command w ∧ decodeCommand w = i) ∨
    (∃ bs, encode p i = .record bs ∧ ∀ rest, decodeRecord p (i == .sig) (bs ++ rest) = .record i rest)

/-- The other direction: what decodes is well formed and is exactly the bytes consumed (no bit is read twice or dropped), and a
command word is re-encoded up to an ignored `arg`. -/
def Obligations.EncodeReturnsWhatWasDecoded : Prop :=
  (∀ (p : Params) (first : Bool) (bs rest : List Byte) (i : Instr), decodeRecord p first bs = .record i rest →
    i.wf p = true ∧ ∃ r, encode p i = .record r ∧ bs = r ++ rest) ∧
  (∀ (p : Params) (w : BitVec 11), ∃ v, encode p (decodeCommand w) = .command v ∧ cmdOp v = cmdOp w ∧
    (cmdOp w = 1#3 ∨ cmdOp w = 3#3 → v = w) ∧ (cmdOp w ≠ 1#3 → cmdOp w ≠ 3#3 → cmdArg v = 0#8))

/-- R70, for bytes at the front of a record: too few bytes are rejected with the field they end in, and eight wrong bytes as
NotThisFormat; anything else decodes. -/
def Obligations.IllFormedRecordsAreRejectedByName : Prop :=
  (∀ bs : List Byte, bs.length < 8 → decodeSig bs = .rejected (.truncated .signature)) ∧
  (∀ bs : List Byte, 8 ≤ bs.length → bs.take 8 ≠ signatureBytes → decodeSig bs = .rejected .notThisFormat) ∧
  (∀ bs : List Byte, 8 ≤ bs.length → bs.take 8 = signatureBytes → decodeSig bs = .record .sig (bs.drop 8)) ∧
  (∀ (p : Params) (bs : List Byte), bs.length < 4 → decodeChunk p bs = .rejected (.truncated .length)) ∧
  (∀ (p : Params) (bs : List Byte), 4 ≤ bs.length → bs.length < 8 → decodeChunk p bs = .rejected (.truncated .typ)) ∧
  (∀ (p : Params) (bs : List Byte), 8 ≤ bs.length → bs.length < 8 + (be32Of (bs.take 4)).toNat →
    decodeChunk p bs = .rejected (.truncated .data)) ∧
  (∀ (p : Params) (bs : List Byte), 8 + (be32Of (bs.take 4)).toNat ≤ bs.length →
    bs.length < 12 + (be32Of (bs.take 4)).toNat → decodeChunk p bs = .rejected (.truncated .crc)) ∧
  (∀ (p : Params) (bs : List Byte), 12 + (be32Of (bs.take 4)).toNat ≤ bs.length →
    ∃ i, decodeChunk p bs = .record i (bs.drop (12 + (be32Of (bs.take 4)).toNat)))

/-- R72, R73: the codes of the results; 6 and 7 are not codes of a field. -/
def Obligations.ResultCodesAsListed : Prop :=
  ResKind.allValid.code = 0b00#2 ∧ ResKind.notThisFormat.code = 0b01#2 ∧ ResKind.mismatch.code = 0b10#2 ∧
    ResKind.truncated.code = 0b11#2 ∧
    ResField.none.code = 0b000#3 ∧ ResField.signature.code = 0b001#3 ∧ ResField.length.code = 0b010#3 ∧
    ResField.typ.code = 0b011#3 ∧ ResField.data.code = 0b100#3 ∧ ResField.crc.code = 0b101#3 ∧
    (∀ f : ResField, f.code ≠ 0b110#3 ∧ f.code ≠ 0b111#3) ∧
    Phase.sig.field = .signature ∧ Phase.len.field = .length ∧ Phase.typ.field = .typ ∧ Phase.dat.field = .data ∧
    Phase.scr.field = .crc

/-! ## VALIDATE and the step rules (spec/41_chunk_validator.md R138 to R146) -/

/-- R138: VALIDATE; its encoding with any `arg`, its two refusals, the whole launch step. -/
def Obligations.ValidateLaunchesARun : Prop :=
  (∀ arg : Byte, decodeCommand (cmdWord 5 arg) = .validate) ∧
    (∀ s : State, s.ph ≠ .idle → exec .validate s = .refused .busy) ∧
    (∀ s : State, s.ph = .idle → s.tblValid = false → exec .validate s = .refused .tableNotBuilt) ∧
    (∀ s : State, s.ph = .idle → s.tblValid = true →
      exec .validate s =
        .next { s with resValid := false, evt := [], pos := 0, idx := 0, sigok := true, k := 0#3, ph := .sig })

/-- R140: a signature byte. -/
def Obligations.SignatureByteStep : Prop :=
  ∀ (s : State) (b : Byte) (rest : List Byte), s.ph = .sig → s.src = b :: rest →
    (s.k.toNat < 7 →
      streamEvent s =
        .next { s with src := rest, pos := s.pos + 1, sigok := s.sigok && b == signatureByte s.k, k := s.k + 1#3 }) ∧
    (s.k.toNat = 7 → (s.sigok && b == signatureByte s.k) = true →
      streamEvent s = .next { s with src := rest, pos := s.pos + 1, sigok := true, ph := .len, k := 0#3 }) ∧
    (s.k.toNat = 7 → (s.sigok && b == signatureByte s.k) = false →
      streamEvent s =
        .next { s with src := rest, pos := s.pos + 1, sigok := false, resKind := .notThisFormat, resField := .none
                       resValid := true, k := 0#3, ph := .idle
                       written := { s.written with resKind := true, resField := true } })

/-- R141: a length byte. -/
def Obligations.LengthByteStep : Prop :=
  ∀ (s : State) (b : Byte) (rest : List Byte), s.ph = .len → s.src = b :: rest →
    (s.k.toNat < 3 →
      streamEvent s =
        .next { s with src := rest, pos := s.pos + 1, len := shiftin s.k s.len b, k := s.k + 1#3
                       written := { s.written with len := true } }) ∧
    (3 ≤ s.k.toNat →
      streamEvent s =
        .next { s with src := rest, pos := s.pos + 1, len := shiftin s.k s.len b, k := 0#3, ph := .typ
                       crc := 0xFFFFFFFF#32, written := { s.written with len := true, crc := true } })

/-- R142: a type byte. -/
def Obligations.TypeByteStep : Prop :=
  ∀ (s : State) (b : Byte) (rest : List Byte), s.ph = .typ → s.src = b :: rest →
    (s.k.toNat < 3 →
      streamEvent s =
        .next { s with src := rest, pos := s.pos + 1, typ := shiftin s.k s.typ b, crc := upd s.tbl s.crc b, k := s.k + 1#3
                       written := { s.written with typ := true, crc := true } }) ∧
    (3 ≤ s.k.toNat → s.len = 0#32 →
      streamEvent s =
        .next { s with src := rest, pos := s.pos + 1, typ := shiftin s.k s.typ b, crc := upd s.tbl s.crc b, k := 0#3
                       ph := .scr, written := { s.written with typ := true, crc := true } }) ∧
    (3 ≤ s.k.toNat → s.len ≠ 0#32 →
      streamEvent s =
        .next { s with src := rest, pos := s.pos + 1, typ := shiftin s.k s.typ b, crc := upd s.tbl s.crc b, k := 0#3
                       ph := .dat, cnt := s.len, written := { s.written with typ := true, crc := true, cnt := true } })

/-- R143: a payload byte. The phase is entered with CNT = LEN ≥ 1 and left when CNT is 0, so CNT is not 0 here
(`State.Inv.payload_left`, which `EveryStepKeepsTheInvariant` keeps), and the decrement never goes below 0 (R16, R104). -/
def Obligations.PayloadByteStep : Prop :=
  ∀ (s : State) (b : Byte) (rest : List Byte), s.ph = .dat → s.cnt ≠ 0#32 → s.src = b :: rest →
    (s.cnt - 1#32).toNat + 1 = s.cnt.toNat ∧
    (s.cnt - 1#32 ≠ 0#32 →
      streamEvent s =
        .next { s with src := rest, pos := s.pos + 1, crc := upd s.tbl s.crc b, cnt := s.cnt - 1#32
                       written := { s.written with crc := true, cnt := true } }) ∧
    (s.cnt - 1#32 = 0#32 →
      streamEvent s =
        .next { s with src := rest, pos := s.pos + 1, crc := upd s.tbl s.crc b, cnt := s.cnt - 1#32, ph := .scr
                       written := { s.written with crc := true, cnt := true } })

/-- R144: a stored-CRC byte, and at K = 3 the comparison and the three ways a chunk ends (mismatch first, then the terminator,
then the next chunk); and R17, R185: in a finite-width realisation a chunk that would overflow IDX is refused. -/
def Obligations.StoredByteStep : Prop :=
  ∀ (s : State) (b : Byte) (rest : List Byte), s.ph = .scr → s.src = b :: rest →
    let stored := shiftin s.k s.scrc b
    let computed := s.crc ^^^ 0xFFFFFFFF#32
    let event : EvtRec := { index := s.idx, typ := s.typ, length := s.len, stored := stored, computed := computed }
    (s.k.toNat < 3 →
      streamEvent s =
        .next { s with src := rest, pos := s.pos + 1, scrc := stored, k := s.k + 1#3
                       written := { s.written with scrc := true } }) ∧
    (3 ≤ s.k.toNat → computed ≠ stored →
      streamEvent s =
        .next { s with src := rest, pos := s.pos + 1, scrc := stored, ccrc := computed, evt := s.evt ++ [event]
                       resKind := .mismatch, resField := .none, resValid := true, k := 0#3, ph := .idle
                       written := { s.written with scrc := true, ccrc := true, resKind := true, resField := true } }) ∧
    (3 ≤ s.k.toNat → computed = stored → s.typ = s.params.terminator →
      streamEvent s =
        .next { s with src := rest, pos := s.pos + 1, scrc := stored, ccrc := computed, evt := s.evt ++ [event]
                       resKind := .allValid, resField := .none, resValid := true, k := 0#3, ph := .idle
                       written := { s.written with scrc := true, ccrc := true, resKind := true, resField := true } }) ∧
    (3 ≤ s.k.toNat → computed = stored → s.typ ≠ s.params.terminator → holdsIndex s.params (s.idx + 1) = true →
      streamEvent s =
        .next { s with src := rest, pos := s.pos + 1, scrc := stored, ccrc := computed, evt := s.evt ++ [event]
                       idx := s.idx + 1, k := 0#3, ph := .len
                       written := { s.written with scrc := true, ccrc := true } }) ∧
    (3 ≤ s.k.toNat → computed = stored → s.typ ≠ s.params.terminator → holdsIndex s.params (s.idx + 1) = false →
      streamEvent s = .refused .indexOverflow)

/-- R145: end of stream in each of the five phases; R146: what every ending writes. -/
def Obligations.EndOfStreamIsTruncated : Prop :=
  ∀ s : State, s.ph ≠ .idle → s.src = [] →
    ∃ f : ResField,
      ((s.ph = .sig → f = .signature) ∧ (s.ph = .len → f = .length) ∧ (s.ph = .typ → f = .typ) ∧
        (s.ph = .dat → f = .data) ∧ (s.ph = .scr → f = .crc)) ∧
      streamEvent s =
        .next { s with resKind := .truncated, resField := f, resValid := true, k := 0#3, ph := .idle
                       written := { s.written with resKind := true, resField := true } }

/-- R146: `terminate` writes exactly RES_KIND, RES_FIELD, RES_VALID, K and PH, and leaves a block that reads no source; every
step that ends a run ends in it, with RES_FIELD = NONE unless the kind is Truncated. -/
def Obligations.EveryEndingIsATermination : Prop :=
  (∀ (s : State) (kind : ResKind) (field : ResField),
    s.terminate kind field =
      { s with resKind := kind, resField := field, resValid := true, k := 0#3, ph := .idle
               written := { s.written with resKind := true, resField := true } } ∧
    (s.terminate kind field).srcReady = false) ∧
  (∀ s t : State, s.ph ≠ .idle → streamEvent s = .next t → t.ph = .idle →
    ∃ (u : State) (kind : ResKind) (field : ResField),
      t = u.terminate kind field ∧ u.ph = s.ph ∧ (kind ≠ .truncated → field = .none))

/-! ## The records as instructions -/

/-- SIG run as a whole (R65, R140): 8 bytes consumed, nothing else changed; and with SIGOK already 0 (a state no run reaches at
K = 0) the verdict is NotThisFormat. -/
def Obligations.SignatureRecordCompletes : Prop :=
  ∀ s : State, s.ph = .sig → s.k = 0#3 →
    (s.sigok = true → exec .sig s = .next { s with pos := s.pos + 8, ph := .len }) ∧
    (s.sigok = false →
      exec .sig s =
        .next { s with pos := s.pos + 8, resKind := .notThisFormat, resField := .none, resValid := true, ph := .idle
                       written := { s.written with resKind := true, resField := true } })

/-- R171: any other 8 bytes are all consumed and then give NotThisFormat, with no chunk register touched. -/
def Obligations.WrongSignatureIsNotThisFormat : Prop :=
  ∀ (s : State) (r : List Byte), s.ph = .sig → s.k = 0#3 → r.length = 8 → r ≠ signatureBytes →
    feed r s =
      .next { s with pos := s.pos + 8, sigok := false, resKind := .notThisFormat, resField := .none, resValid := true
                     ph := .idle, written := { s.written with resKind := true, resField := true } }

/-- CHUNK with the right checksum, run as a whole (R131 to R133, R144): the whole state before the next chunk. An empty payload
is checksummed over the type alone, and CNT keeps its value then. -/
def Obligations.GoodChunkContinuesTheRun : Prop :=
  ∀ (s : State) (length typ : Word) (data : List Byte), s.ph = .len → s.k = 0#3 → data.length = length.toNat →
    typ ≠ s.params.terminator → holdsIndex s.params (s.idx + 1) = true →
    let c := checksum s.tbl (be32Bytes typ ++ data)
    exec (.chunk length typ data c) s =
      .next { s with len := length, typ := typ, crc := c ^^^ 0xFFFFFFFF#32, scrc := c, ccrc := c
                     cnt := if length = 0#32 then s.cnt else 0#32, idx := s.idx + 1, pos := s.pos + 12 + length.toNat
                     evt := s.evt ++ [{ index := s.idx, typ := typ, length := length, stored := c, computed := c }]
                     written := { s.written with len := true, typ := true, crc := true, scrc := true, ccrc := true
                                                 cnt := s.written.cnt || length != 0#32 } }

/-- CHUNK with a wrong checksum (R132 step 2c, R136, R173): Mismatch, with the type, the stored and the computed value. -/
def Obligations.WrongChunkIsAMismatch : Prop :=
  ∀ (s : State) (length typ : Word) (data : List Byte) (stored : Word), s.ph = .len → s.k = 0#3 →
    data.length = length.toNat → typ ≠ s.params.terminator → stored ≠ checksum s.tbl (be32Bytes typ ++ data) →
    let c := checksum s.tbl (be32Bytes typ ++ data)
    exec (.chunk length typ data stored) s =
      .next { s with len := length, typ := typ, crc := c ^^^ 0xFFFFFFFF#32, scrc := stored, ccrc := c
                     cnt := if length = 0#32 then s.cnt else 0#32, pos := s.pos + 12 + length.toNat
                     evt := s.evt ++ [{ index := s.idx, typ := typ, length := length, stored := stored, computed := c }]
                     resKind := .mismatch, resField := .none, resValid := true, ph := .idle
                     written := { s.written with len := true, typ := true, crc := true, scrc := true, ccrc := true
                                                 cnt := s.written.cnt || length != 0#32
                                                 resKind := true, resField := true } }

/-- CHUNK.TERM with the right checksum (R132 step 2d, R135, R174): AllValid; the payload may be empty or not. -/
def Obligations.GoodTerminatorEndsAllValid : Prop :=
  ∀ (s : State) (length : Word) (data : List Byte), s.ph = .len → s.k = 0#3 → data.length = length.toNat →
    let c := checksum s.tbl (be32Bytes s.params.terminator ++ data)
    exec (.chunkTerm length data c) s =
      .next { s with len := length, typ := s.params.terminator, crc := c ^^^ 0xFFFFFFFF#32, scrc := c, ccrc := c
                     cnt := if length = 0#32 then s.cnt else 0#32, pos := s.pos + 12 + length.toNat
                     evt := s.evt ++
                       [{ index := s.idx, typ := s.params.terminator, length := length, stored := c, computed := c }]
                     resKind := .allValid, resField := .none, resValid := true, ph := .idle
                     written := { s.written with len := true, typ := true, crc := true, scrc := true, ccrc := true
                                                 cnt := s.written.cnt || length != 0#32
                                                 resKind := true, resField := true } }

/-- CHUNK.TERM with a wrong checksum (R135): Mismatch, not AllValid. -/
def Obligations.WrongTerminatorIsAMismatch : Prop :=
  ∀ (s : State) (length : Word) (data : List Byte) (stored : Word), s.ph = .len → s.k = 0#3 →
    data.length = length.toNat → stored ≠ checksum s.tbl (be32Bytes s.params.terminator ++ data) →
    let c := checksum s.tbl (be32Bytes s.params.terminator ++ data)
    exec (.chunkTerm length data stored) s =
      .next { s with len := length, typ := s.params.terminator, crc := c ^^^ 0xFFFFFFFF#32, scrc := stored, ccrc := c
                     cnt := if length = 0#32 then s.cnt else 0#32, pos := s.pos + 12 + length.toNat
                     evt := s.evt ++
                       [{ index := s.idx, typ := s.params.terminator, length := length, stored := stored, computed := c }]
                     resKind := .mismatch, resField := .none, resValid := true, ph := .idle
                     written := { s.written with len := true, typ := true, crc := true, scrc := true, ccrc := true
                                                 cnt := s.written.cnt || length != 0#32
                                                 resKind := true, resField := true } }

/-- Where a record term does not run (R60; log entry 10, the model's choice of refusals): a record of another format than the one
that begins at the cursor, and a term that the encoding does not have. -/
def Obligations.RecordsRunOnlyWhereTheyBegin : Prop :=
  ∀ (s : State) (length typ : Word) (data : List Byte) (stored : Word),
    (¬(s.ph = .sig ∧ s.k = 0#3) → exec .sig s = .refused .noRecordHere) ∧
    (¬(s.ph = .len ∧ s.k = 0#3) →
      exec (.chunk length typ data stored) s = .refused .noRecordHere ∧
      exec (.chunkTerm length data stored) s = .refused .noRecordHere) ∧
    (s.ph = .len → s.k = 0#3 → data.length ≠ length.toNat →
      exec (.chunk length typ data stored) s = .refused .notARecord ∧
      exec (.chunkTerm length data stored) s = .refused .notARecord) ∧
    (s.ph = .len → s.k = 0#3 → typ = s.params.terminator →
      exec (.chunk length typ data stored) s = .refused .notARecord)

/-! ## Steps -/

/-- A step of an idle block runs the decoded command word, taken off the host's actions. -/
def Obligations.StepRunsTheDecodedCommand : Prop :=
  ∀ (s : State) (w : BitVec 11) (rest : List Input), s.ph = .idle → s.inputs = .command w :: rest →
    step s = exec (decodeCommand w) { s with inputs := rest }

/-- R204, R207, R186: a step in a run takes one stream event, with a command word left offered, and a source connected then is
refused; an idle block without a request keeps all its state; the model's host actions `pause`, `awaitIdle`, `connect` (log
entry 3). -/
def Obligations.StepTakesStreamEventsOnlyInARun : Prop :=
  ∀ (s : State) (w : BitVec 11) (bs : List Byte) (rest : List Input),
    (s.ph ≠ .idle → s.inputs = [] → step s = streamEvent s) ∧
    (s.ph ≠ .idle → s.inputs = .command w :: rest → step s = streamEvent s) ∧
    (s.ph ≠ .idle → s.inputs = .awaitIdle :: rest → step s = streamEvent s) ∧
    (s.ph ≠ .idle → s.inputs = .pause :: rest → step s = streamEvent { s with inputs := rest }) ∧
    (s.ph ≠ .idle → s.inputs = .connect bs :: rest → step s = .refused .sourceNotExclusive) ∧
    (s.ph = .idle → s.inputs = [] → step s = .next s) ∧
    (s.ph = .idle → s.inputs = .awaitIdle :: rest → step s = .next { s with inputs := rest }) ∧
    (s.ph = .idle → s.inputs = .pause :: rest → step s = .next { s with inputs := rest }) ∧
    (s.ph = .idle → s.inputs = .connect bs :: rest → step s = .next { s with inputs := rest, src := bs })

/-- A record at the front of the source is run by as many steps as it has bytes: they answer what exec of the decoded record
answers, the source moved past it (R60, R147; log entry 10). -/
def Obligations.StepsRunTheDecodedRecord : Prop :=
  ∀ (s : State) (i : Instr) (rest : List Byte),
    (s.inputs = [] ∨ ∃ w later, s.inputs = .command w :: later) → s.k = 0#3 →
    (s.ph = .sig ∨ s.ph = .len) → decodeRecord s.params (s.ph == .sig) s.src = .record i rest →
      Host.Core.run Sys2Proof.core (s.src.length - rest.length) s = exec i { s with src := rest }

/-- R148: the phase graph. Each line is a row of the rule's table; the second one says that an idle block, which takes no
stream event, leaves IDLE by no instruction but VALIDATE. -/
def Obligations.PhasesFollowTheGraph : Prop :=
  (∀ s t : State, exec .validate s = .next t → s.ph = .idle ∧ t.ph = .sig) ∧
  (∀ (i : Instr) (s t : State), s.ph = .idle → i ≠ .validate → exec i s = .next t → t.ph = .idle) ∧
  ∀ (s t : State) (b : Byte) (rest : List Byte), streamEvent s = .next t →
    (s.src = [] → s.ph ≠ .idle → t.ph = .idle ∧ t.resKind = .truncated) ∧
    (s.src = b :: rest →
      (s.ph = .sig → s.k.toNat < 7 → t.ph = .sig) ∧
      (s.ph = .sig → s.k.toNat = 7 → t.sigok = true → t.ph = .len) ∧
      (s.ph = .sig → s.k.toNat = 7 → t.sigok = false → t.ph = .idle ∧ t.resKind = .notThisFormat) ∧
      (s.ph = .len → s.k.toNat < 3 → t.ph = .len) ∧
      (s.ph = .len → s.k.toNat = 3 → t.ph = .typ) ∧
      (s.ph = .typ → s.k.toNat < 3 → t.ph = .typ) ∧
      (s.ph = .typ → s.k.toNat = 3 → s.len = 0#32 → t.ph = .scr) ∧
      (s.ph = .typ → s.k.toNat = 3 → s.len ≠ 0#32 → t.ph = .dat) ∧
      (s.ph = .dat → s.cnt.toNat > 1 → t.ph = .dat) ∧
      (s.ph = .dat → s.cnt.toNat = 1 → t.ph = .scr) ∧
      (s.ph = .scr → s.k.toNat < 3 → t.ph = .scr) ∧
      (s.ph = .scr → s.k.toNat = 3 → t.ccrc ≠ t.scrc → t.ph = .idle ∧ t.resKind = .mismatch) ∧
      (s.ph = .scr → s.k.toNat = 3 → t.ccrc = t.scrc → s.typ = s.params.terminator →
        t.ph = .idle ∧ t.resKind = .allValid) ∧
      (s.ph = .scr → s.k.toNat = 3 → t.ccrc = t.scrc → s.typ ≠ s.params.terminator →
        t.ph = .len ∧ t.idx = s.idx + 1))

/-- R42: an all-or-failure read of `n` bytes is `n` calls of SrcNext that stop at the first end-of-stream; a failed one has
consumed every byte that was left. -/
def Obligations.ReadOfNBytesIsNSingleReads : Prop :=
  ∀ (n : Nat) (s : State),
    (n ≤ s.src.length →
      srcRead n s.src = .bytes (s.src.take n) (s.src.drop n) ∧
      srcNexts n s = (some (s.src.take n), { s with src := s.src.drop n, pos := s.pos + n })) ∧
    (s.src.length < n →
      srcRead n s.src = .fail [] ∧ srcNexts n s = (none, { s with src := [], pos := s.pos + s.src.length }))

/-- C1, R130, R132, R171, R172: a stream shorter than 8 bytes is Truncated in the signature whatever its bytes, and 8 or more
bytes that do not begin with the signature are NotThisFormat with exactly 8 bytes consumed. -/
def Obligations.ShortSignatureIsTruncated : Prop :=
  ∀ (t : Vector Word 256) (terminator : Word) (bs : List Byte),
    (bs.length < 8 →
      validateStream t terminator bs =
        some { outcome := .truncated 0 .signature, index := 0, unread := [], evt := [] }) ∧
    (8 ≤ bs.length → bs.take 8 ≠ signatureBytes →
      validateStream t terminator bs =
        some { outcome := .notThisFormat, index := 0, unread := bs.drop 8, evt := [] })

/-- R147: the two levels agree. From the state a launch leaves, at the level of the rules (IDX unbounded), the run ends, and its
outcome with payload, its index, the bytes it leaves unread, POS and EVT are what `validate_stream` gives. -/
def Obligations.TheTwoLevelsAgree : Prop :=
  ∀ (s : State) (w : BitVec 11), s.ph = .idle → s.tblValid = true → s.params.idxWidth = none →
    decodeCommand w = .validate → s.inputs = [.command w] →
    ∃ (n : Nat) (t : State) (r : RunReport),
      Host.Core.run Sys2Proof.core n s = .next t ∧ validateStream s.tbl s.params.terminator s.src = some r ∧
      n ≤ s.src.length + 2 ∧ t.result = some r.outcome ∧ t.idx = r.index ∧ t.src = r.unread ∧
      t.pos + r.unread.length = s.src.length ∧ t.evt = r.evt

/-- R203, steps 1 to 4, with R202 and R147: whatever the block was doing, a host that resets it, builds the table, connects a
byte source and issues VALIDATE gets from `State.result` what `validate_stream` returns for those bytes; and for the next file it
may go on from step 3, the table being kept. -/
def Obligations.StartUpSequenceGivesTheOutcome : Prop :=
  ∀ (s : State) (bs : List Byte), s.params.idxWidth = none →
    (s.inputs = [.reset, .command (cmdWord 0 0), .connect bs, .command (cmdWord 5 0)] ∨
      (s.Inv ∧ s.ph = .idle ∧ s.tblValid = true ∧ s.inputs = [.connect bs, .command (cmdWord 5 0)])) →
    ∃ (n : Nat) (t : State) (r : RunReport),
      Host.Core.run Sys2Proof.core n s = .next t ∧ validateStream buildTable s.params.terminator bs = some r ∧
      t.ph = .idle ∧ t.result = some r.outcome ∧ t.idx = r.index ∧ t.src = r.unread ∧ t.evt = r.evt ∧ t.tblValid = true

/-- R137, R211: with a finite source a run ends, after at most one step a byte and one end-of-stream step. -/
def Obligations.EveryRunEnds : Prop :=
  ∀ s : State, s.ph ≠ .idle → s.inputs = [] → s.params.idxWidth = none →
    ∃ (n : Nat) (t : State), n ≤ s.src.length + 1 ∧ Host.Core.run Sys2Proof.core n s = .next t ∧ t.ph = .idle ∧
      t.resValid = true

/-! ## Rules about the whole machine -/

/-- The invariant holds at reset. -/
def Obligations.InvariantHoldsAtReset : Prop := State.reset.Inv

/-- Every step keeps the invariant (R10, R16, R21 to R24, R32, R149, R150, R205). -/
def Obligations.EveryStepKeepsTheInvariant : Prop :=
  ∀ s t : State, s.Inv → step s = .next t → t.Inv

/-- R19, R43, R44: every event of a run moves POS by exactly one with the byte it consumed, or is end-of-stream and leaves POS;
no byte is read twice or skipped. -/
def Obligations.StreamIsConsumedStrictlyForward : Prop :=
  ∀ s t : State, streamEvent s = .next t →
    (∃ b rest, s.src = b :: rest ∧ t.src = rest ∧ t.pos = s.pos + 1) ∨
    (s.src = [] ∧ t.src = [] ∧ t.pos = s.pos ∧ t.resKind = .truncated ∧ t.ph = .idle)

/-- R149, first sentence, and R28: EVT grows by one record exactly in the step that consumes a chunk's last byte, with the values of that
step. -/
def Obligations.OneEventPerCompleteChunk : Prop :=
  ∀ s t : State, streamEvent s = .next t →
    (s.ph = .scr ∧ 3 ≤ s.k.toNat ∧ s.src ≠ [] →
      t.evt = s.evt ++ [{ index := s.idx, typ := s.typ, length := s.len, stored := t.scrc, computed := t.ccrc }]) ∧
    (¬(s.ph = .scr ∧ 3 ≤ s.k.toNat ∧ s.src ≠ []) → t.evt = s.evt)

/-- R23, R29: TBL and TBL_VALID change only by an accepted BUILD or by reset; and no step changes the parameters (R4, R33). -/
def Obligations.OnlyBuildOrResetChangesTheTable : Prop :=
  ∀ s t : State, step s = .next t →
    t.params = s.params ∧
    ((t.tbl = s.tbl ∧ t.tblValid = s.tblValid) ∨
    (t.tbl = buildTable ∧ t.tblValid = true ∧ s.ph = .idle ∧
      ∃ w rest, s.inputs = .command w :: rest ∧ decodeCommand w = .build) ∨
    (t.tblValid = false ∧ ∃ rest, s.inputs = .reset :: rest))

/-- R24, R136, R146: a result appears only in the step that ends a run, and a run ends, but for reset, only with a result. -/
def Obligations.AResultAppearsOnlyAtTheEndOfARun : Prop :=
  ∀ s t : State, step s = .next t →
    (s.resValid = false → t.resValid = true → s.ph ≠ .idle ∧ t.ph = .idle) ∧
    (s.ph ≠ .idle → t.ph = .idle → (∀ rest, s.inputs ≠ .reset :: rest) → t.resValid = true)

/-- R177: a shown result stays, with its registers, until the next VALIDATE is accepted or reset. -/
def Obligations.AResultLastsUntilValidateOrReset : Prop :=
  ∀ s t : State, s.ph = .idle → step s = .next t → (∀ rest, s.inputs ≠ .reset :: rest) →
    (∀ w rest, s.inputs = .command w :: rest → decodeCommand w ≠ .validate) →
    t.resValid = s.resValid ∧ t.resKind = s.resKind ∧ t.resField = s.resField ∧ t.idx = s.idx ∧ t.pos = s.pos ∧
      t.typ = s.typ ∧ t.scrc = s.scrc ∧ t.len = s.len ∧ t.sigok = s.sigok ∧ t.evt = s.evt ∧ t.ph = .idle

/-- R176: what the registers hold when a run has just ended, by outcome, from a state of a run. POS is exact: the offset after
the last chunk read for AllValid and Mismatch (R150), 8 for NotThisFormat, and for Truncated the offset at which the source had
no byte left, which is |S|. -/
def Obligations.OutcomeRegistersAreAsListed : Prop :=
  ∀ s t : State, s.Inv → s.ph ≠ .idle → streamEvent s = .next t → t.ph = .idle →
    t.resValid = true ∧
    (t.resKind = .allValid ∨ t.resKind = .mismatch →
      t.written.typ = true ∧ t.written.len = true ∧ t.written.scrc = true ∧ t.written.ccrc = true ∧ t.written.crc = true) ∧
    (t.resKind = .allValid →
      t.resField = .none ∧ t.sigok = true ∧ t.typ = s.params.terminator ∧ t.scrc = t.ccrc ∧
        t.crc = t.ccrc ^^^ 0xFFFFFFFF#32 ∧ t.evt.length = t.idx + 1 ∧ t.pos = t.chunksEnd) ∧
    (t.resKind = .notThisFormat →
      t.resField = .none ∧ t.idx = 0 ∧ t.pos = 8 ∧ t.sigok = false ∧ t.evt = []) ∧
    (t.resKind = .mismatch →
      t.resField = .none ∧ t.sigok = true ∧ t.scrc ≠ t.ccrc ∧ t.crc = t.ccrc ^^^ 0xFFFFFFFF#32 ∧
        t.evt.length = t.idx + 1 ∧ t.pos = t.chunksEnd) ∧
    (t.resKind = .truncated →
      t.resField ≠ .none ∧ s.src = [] ∧ t.src = [] ∧ t.pos = s.pos ∧ t.evt.length = t.idx ∧ (t.resField ≠ .signature → t.sigok = true) ∧
        (t.resField = .typ ∨ t.resField = .data ∨ t.resField = .crc → t.written.len = true) ∧
        (t.resField = .data ∨ t.resField = .crc → t.written.typ = true))

/-- R61: the two fields of the word, `cmd_ready` shown exactly for the words the block would accept, and every word either
accepted or refused. -/
def Obligations.CmdReadyExactlyWhenAccepted : Prop :=
  ∀ (s : State) (w : BitVec 11),
    (cmdOp w).toNat = w.toNat / 256 ∧ (cmdArg w).toNat = w.toNat % 256 ∧ cmdWord (cmdOp w) (cmdArg w) = w ∧
    (s.cmdReady w = true ↔ ∃ t, exec (decodeCommand w) s = .next t) ∧
    (s.cmdReady w = false ↔ ∃ r, exec (decodeCommand w) s = .refused r)

/-- The closed list of R185, for command words and for a run's stream events; then the refusals of a whole step, which are those
and the one of R207, a source connected during a run (log entry 6); and that nothing faults, the type Fault being empty (log
entry 18). -/
def Obligations.RefusalsAreTheClosedList : Prop :=
  (∀ (s : State) (w : BitVec 11) (r : Refusal), exec (decodeCommand w) s = .refused r ↔
    (s.ph ≠ .idle ∧ r = .busy) ∨
    (s.ph = .idle ∧ (cmdOp w = 6#3 ∨ cmdOp w = 7#3) ∧ r = .reservedOpcode) ∨
    (s.ph = .idle ∧ (cmdOp w = 1#3 ∨ cmdOp w = 3#3 ∨ cmdOp w = 5#3) ∧ s.tblValid = false ∧ r = .tableNotBuilt) ∨
    (s.ph = .idle ∧ cmdOp w = 3#3 ∧ s.tblValid = true ∧ s.written.crc = false ∧ r = .crcUnwritten) ∨
    (s.ph = .idle ∧ cmdOp w = 4#3 ∧ s.written.crc = false ∧ r = .crcUnwritten)) ∧
  (∀ (s : State) (r : Refusal), s.ph ≠ .idle → (streamEvent s = .refused r ↔
    r = .indexOverflow ∧ s.ph = .scr ∧ 3 ≤ s.k.toNat ∧ holdsIndex s.params (s.idx + 1) = false ∧
      s.typ ≠ s.params.terminator ∧
      ∃ b rest, s.src = b :: rest ∧ s.crc ^^^ 0xFFFFFFFF#32 = shiftin s.k s.scrc b)) ∧
  (∀ (s : State) (r : Refusal), step s = .refused r ↔
    (s.ph = .idle ∧ ∃ w rest, s.inputs = .command w :: rest ∧
      exec (decodeCommand w) { s with inputs := rest } = .refused r) ∨
    (s.ph ≠ .idle ∧ (∀ rest, s.inputs ≠ .reset :: rest) ∧ (∀ bs rest, s.inputs ≠ .connect bs :: rest) ∧
      streamEvent s = .refused r) ∨
    (s.ph ≠ .idle ∧ (∃ bs rest, s.inputs = .connect bs :: rest) ∧ r = .sourceNotExclusive)) ∧
  (∀ (s : State) (f : Fault), step s ≠ .fault f)
end

