-- ==== Sys2Proof/Laws/Decode.lean ====
section
/-! SUPPORT. The lemmas of field assembly and of the all-or-failure split, once. -/

namespace Sys2Proof

@[simp] theorem be32Bytes_length (w : Word) : (be32Bytes w).length = 4 := rfl

/-- The four bytes of a word assemble to it. -/
@[simp] theorem be32Of_be32Bytes (w : Word) : be32Of (be32Bytes w) = w := by
  unfold be32Bytes be32Of be32 zext32
  ext i hi
  simp
  have : i < 32 := hi
  interval_cases i <;> simp

/-- Four bytes are the bytes of the word they assemble to. -/
theorem be32Bytes_be32Of {l : List Byte} (h : l.length = 4) : be32Bytes (be32Of l) = l := by
  match l, h with
  | [a, b, c, d], _ =>
    unfold be32Of be32 zext32 be32Bytes
    simp
    refine ⟨?_, ?_, ?_, ?_⟩ <;> (ext i hi; simp; have : i < 8 := hi; interval_cases i <;> simp)

theorem splitBytes_append {n : Nat} {a : List Byte} (b : List Byte) (h : a.length = n) :
    splitBytes n (a ++ b) = some (a, b) := by
  simp [splitBytes, ← h]

theorem splitBytes_short {n : Nat} {bs : List Byte} (h : bs.length < n) : splitBytes n bs = none := by
  simp [splitBytes]; omega

theorem splitBytes_long {n : Nat} {bs : List Byte} (h : n ≤ bs.length) :
    splitBytes n bs = some (bs.take n, bs.drop n) := by
  simp [splitBytes, h]

/-- A split that succeeds cuts the sequence in two, the first part `n` bytes long. -/
theorem splitBytes_eq_some {n : Nat} {bs a b : List Byte} (h : splitBytes n bs = some (a, b)) :
    bs = a ++ b ∧ a.length = n := by
  unfold splitBytes at h
  split at h
  · cases h; exact ⟨(List.take_append_drop n bs).symm, by simp; omega⟩
  · cases h

/-- Four shift-in steps of the bytes of `w` give `w` (R67). -/
theorem be32_of_bytes (w : Word) :
    be32 (w.extractLsb' 24 8) (w.extractLsb' 16 8) (w.extractLsb' 8 8) (w.extractLsb' 0 8) = w :=
  be32Of_be32Bytes w

end Sys2Proof
end

