-- ==== Sys2Proof/Laws/State.lean ====
section
/-! SUPPORT. One lemma per field of State for each named update (Machine/Ops.lean, Engine.lean, Validator.lean): what it writes
and what it leaves alone. -/

namespace Sys2Proof.Machine

@[simp] theorem State.setCrc_crc (s : State) (v : Word) : (s.setCrc v).crc = v := rfl
@[simp] theorem State.setCrc_len (s : State) (v : Word) : (s.setCrc v).len = s.len := rfl
@[simp] theorem State.setCrc_typ (s : State) (v : Word) : (s.setCrc v).typ = s.typ := rfl
@[simp] theorem State.setCrc_scrc (s : State) (v : Word) : (s.setCrc v).scrc = s.scrc := rfl
@[simp] theorem State.setCrc_ccrc (s : State) (v : Word) : (s.setCrc v).ccrc = s.ccrc := rfl
@[simp] theorem State.setCrc_cnt (s : State) (v : Word) : (s.setCrc v).cnt = s.cnt := rfl
@[simp] theorem State.setCrc_idx (s : State) (v : Word) : (s.setCrc v).idx = s.idx := rfl
@[simp] theorem State.setCrc_tdat (s : State) (v : Word) : (s.setCrc v).tdat = s.tdat := rfl
@[simp] theorem State.setCrc_pos (s : State) (v : Word) : (s.setCrc v).pos = s.pos := rfl
@[simp] theorem State.setCrc_ph (s : State) (v : Word) : (s.setCrc v).ph = s.ph := rfl
@[simp] theorem State.setCrc_k (s : State) (v : Word) : (s.setCrc v).k = s.k := rfl
@[simp] theorem State.setCrc_sigok (s : State) (v : Word) : (s.setCrc v).sigok = s.sigok := rfl
@[simp] theorem State.setCrc_tblValid (s : State) (v : Word) : (s.setCrc v).tblValid = s.tblValid := rfl
@[simp] theorem State.setCrc_resValid (s : State) (v : Word) : (s.setCrc v).resValid = s.resValid := rfl
@[simp] theorem State.setCrc_resKind (s : State) (v : Word) : (s.setCrc v).resKind = s.resKind := rfl
@[simp] theorem State.setCrc_resField (s : State) (v : Word) : (s.setCrc v).resField = s.resField := rfl
@[simp] theorem State.setCrc_tbl (s : State) (v : Word) : (s.setCrc v).tbl = s.tbl := rfl
@[simp] theorem State.setCrc_evt (s : State) (v : Word) : (s.setCrc v).evt = s.evt := rfl
@[simp] theorem State.setCrc_written (s : State) (v : Word) : (s.setCrc v).written = { s.written with crc := true } := rfl
@[simp] theorem State.setCrc_params (s : State) (v : Word) : (s.setCrc v).params = s.params := rfl
@[simp] theorem State.setCrc_src (s : State) (v : Word) : (s.setCrc v).src = s.src := rfl
@[simp] theorem State.setCrc_inputs (s : State) (v : Word) : (s.setCrc v).inputs = s.inputs := rfl

@[simp] theorem State.setLen_crc (s : State) (v : Word) : (s.setLen v).crc = s.crc := rfl
@[simp] theorem State.setLen_len (s : State) (v : Word) : (s.setLen v).len = v := rfl
@[simp] theorem State.setLen_typ (s : State) (v : Word) : (s.setLen v).typ = s.typ := rfl
@[simp] theorem State.setLen_scrc (s : State) (v : Word) : (s.setLen v).scrc = s.scrc := rfl
@[simp] theorem State.setLen_ccrc (s : State) (v : Word) : (s.setLen v).ccrc = s.ccrc := rfl
@[simp] theorem State.setLen_cnt (s : State) (v : Word) : (s.setLen v).cnt = s.cnt := rfl
@[simp] theorem State.setLen_idx (s : State) (v : Word) : (s.setLen v).idx = s.idx := rfl
@[simp] theorem State.setLen_tdat (s : State) (v : Word) : (s.setLen v).tdat = s.tdat := rfl
@[simp] theorem State.setLen_pos (s : State) (v : Word) : (s.setLen v).pos = s.pos := rfl
@[simp] theorem State.setLen_ph (s : State) (v : Word) : (s.setLen v).ph = s.ph := rfl
@[simp] theorem State.setLen_k (s : State) (v : Word) : (s.setLen v).k = s.k := rfl
@[simp] theorem State.setLen_sigok (s : State) (v : Word) : (s.setLen v).sigok = s.sigok := rfl
@[simp] theorem State.setLen_tblValid (s : State) (v : Word) : (s.setLen v).tblValid = s.tblValid := rfl
@[simp] theorem State.setLen_resValid (s : State) (v : Word) : (s.setLen v).resValid = s.resValid := rfl
@[simp] theorem State.setLen_resKind (s : State) (v : Word) : (s.setLen v).resKind = s.resKind := rfl
@[simp] theorem State.setLen_resField (s : State) (v : Word) : (s.setLen v).resField = s.resField := rfl
@[simp] theorem State.setLen_tbl (s : State) (v : Word) : (s.setLen v).tbl = s.tbl := rfl
@[simp] theorem State.setLen_evt (s : State) (v : Word) : (s.setLen v).evt = s.evt := rfl
@[simp] theorem State.setLen_written (s : State) (v : Word) : (s.setLen v).written = { s.written with len := true } := rfl
@[simp] theorem State.setLen_params (s : State) (v : Word) : (s.setLen v).params = s.params := rfl
@[simp] theorem State.setLen_src (s : State) (v : Word) : (s.setLen v).src = s.src := rfl
@[simp] theorem State.setLen_inputs (s : State) (v : Word) : (s.setLen v).inputs = s.inputs := rfl

@[simp] theorem State.setTyp_crc (s : State) (v : Word) : (s.setTyp v).crc = s.crc := rfl
@[simp] theorem State.setTyp_len (s : State) (v : Word) : (s.setTyp v).len = s.len := rfl
@[simp] theorem State.setTyp_typ (s : State) (v : Word) : (s.setTyp v).typ = v := rfl
@[simp] theorem State.setTyp_scrc (s : State) (v : Word) : (s.setTyp v).scrc = s.scrc := rfl
@[simp] theorem State.setTyp_ccrc (s : State) (v : Word) : (s.setTyp v).ccrc = s.ccrc := rfl
@[simp] theorem State.setTyp_cnt (s : State) (v : Word) : (s.setTyp v).cnt = s.cnt := rfl
@[simp] theorem State.setTyp_idx (s : State) (v : Word) : (s.setTyp v).idx = s.idx := rfl
@[simp] theorem State.setTyp_tdat (s : State) (v : Word) : (s.setTyp v).tdat = s.tdat := rfl
@[simp] theorem State.setTyp_pos (s : State) (v : Word) : (s.setTyp v).pos = s.pos := rfl
@[simp] theorem State.setTyp_ph (s : State) (v : Word) : (s.setTyp v).ph = s.ph := rfl
@[simp] theorem State.setTyp_k (s : State) (v : Word) : (s.setTyp v).k = s.k := rfl
@[simp] theorem State.setTyp_sigok (s : State) (v : Word) : (s.setTyp v).sigok = s.sigok := rfl
@[simp] theorem State.setTyp_tblValid (s : State) (v : Word) : (s.setTyp v).tblValid = s.tblValid := rfl
@[simp] theorem State.setTyp_resValid (s : State) (v : Word) : (s.setTyp v).resValid = s.resValid := rfl
@[simp] theorem State.setTyp_resKind (s : State) (v : Word) : (s.setTyp v).resKind = s.resKind := rfl
@[simp] theorem State.setTyp_resField (s : State) (v : Word) : (s.setTyp v).resField = s.resField := rfl
@[simp] theorem State.setTyp_tbl (s : State) (v : Word) : (s.setTyp v).tbl = s.tbl := rfl
@[simp] theorem State.setTyp_evt (s : State) (v : Word) : (s.setTyp v).evt = s.evt := rfl
@[simp] theorem State.setTyp_written (s : State) (v : Word) : (s.setTyp v).written = { s.written with typ := true } := rfl
@[simp] theorem State.setTyp_params (s : State) (v : Word) : (s.setTyp v).params = s.params := rfl
@[simp] theorem State.setTyp_src (s : State) (v : Word) : (s.setTyp v).src = s.src := rfl
@[simp] theorem State.setTyp_inputs (s : State) (v : Word) : (s.setTyp v).inputs = s.inputs := rfl

@[simp] theorem State.setScrc_crc (s : State) (v : Word) : (s.setScrc v).crc = s.crc := rfl
@[simp] theorem State.setScrc_len (s : State) (v : Word) : (s.setScrc v).len = s.len := rfl
@[simp] theorem State.setScrc_typ (s : State) (v : Word) : (s.setScrc v).typ = s.typ := rfl
@[simp] theorem State.setScrc_scrc (s : State) (v : Word) : (s.setScrc v).scrc = v := rfl
@[simp] theorem State.setScrc_ccrc (s : State) (v : Word) : (s.setScrc v).ccrc = s.ccrc := rfl
@[simp] theorem State.setScrc_cnt (s : State) (v : Word) : (s.setScrc v).cnt = s.cnt := rfl
@[simp] theorem State.setScrc_idx (s : State) (v : Word) : (s.setScrc v).idx = s.idx := rfl
@[simp] theorem State.setScrc_tdat (s : State) (v : Word) : (s.setScrc v).tdat = s.tdat := rfl
@[simp] theorem State.setScrc_pos (s : State) (v : Word) : (s.setScrc v).pos = s.pos := rfl
@[simp] theorem State.setScrc_ph (s : State) (v : Word) : (s.setScrc v).ph = s.ph := rfl
@[simp] theorem State.setScrc_k (s : State) (v : Word) : (s.setScrc v).k = s.k := rfl
@[simp] theorem State.setScrc_sigok (s : State) (v : Word) : (s.setScrc v).sigok = s.sigok := rfl
@[simp] theorem State.setScrc_tblValid (s : State) (v : Word) : (s.setScrc v).tblValid = s.tblValid := rfl
@[simp] theorem State.setScrc_resValid (s : State) (v : Word) : (s.setScrc v).resValid = s.resValid := rfl
@[simp] theorem State.setScrc_resKind (s : State) (v : Word) : (s.setScrc v).resKind = s.resKind := rfl
@[simp] theorem State.setScrc_resField (s : State) (v : Word) : (s.setScrc v).resField = s.resField := rfl
@[simp] theorem State.setScrc_tbl (s : State) (v : Word) : (s.setScrc v).tbl = s.tbl := rfl
@[simp] theorem State.setScrc_evt (s : State) (v : Word) : (s.setScrc v).evt = s.evt := rfl
@[simp] theorem State.setScrc_written (s : State) (v : Word) : (s.setScrc v).written = { s.written with scrc := true } := rfl
@[simp] theorem State.setScrc_params (s : State) (v : Word) : (s.setScrc v).params = s.params := rfl
@[simp] theorem State.setScrc_src (s : State) (v : Word) : (s.setScrc v).src = s.src := rfl
@[simp] theorem State.setScrc_inputs (s : State) (v : Word) : (s.setScrc v).inputs = s.inputs := rfl

@[simp] theorem State.setCcrc_crc (s : State) (v : Word) : (s.setCcrc v).crc = s.crc := rfl
@[simp] theorem State.setCcrc_len (s : State) (v : Word) : (s.setCcrc v).len = s.len := rfl
@[simp] theorem State.setCcrc_typ (s : State) (v : Word) : (s.setCcrc v).typ = s.typ := rfl
@[simp] theorem State.setCcrc_scrc (s : State) (v : Word) : (s.setCcrc v).scrc = s.scrc := rfl
@[simp] theorem State.setCcrc_ccrc (s : State) (v : Word) : (s.setCcrc v).ccrc = v := rfl
@[simp] theorem State.setCcrc_cnt (s : State) (v : Word) : (s.setCcrc v).cnt = s.cnt := rfl
@[simp] theorem State.setCcrc_idx (s : State) (v : Word) : (s.setCcrc v).idx = s.idx := rfl
@[simp] theorem State.setCcrc_tdat (s : State) (v : Word) : (s.setCcrc v).tdat = s.tdat := rfl
@[simp] theorem State.setCcrc_pos (s : State) (v : Word) : (s.setCcrc v).pos = s.pos := rfl
@[simp] theorem State.setCcrc_ph (s : State) (v : Word) : (s.setCcrc v).ph = s.ph := rfl
@[simp] theorem State.setCcrc_k (s : State) (v : Word) : (s.setCcrc v).k = s.k := rfl
@[simp] theorem State.setCcrc_sigok (s : State) (v : Word) : (s.setCcrc v).sigok = s.sigok := rfl
@[simp] theorem State.setCcrc_tblValid (s : State) (v : Word) : (s.setCcrc v).tblValid = s.tblValid := rfl
@[simp] theorem State.setCcrc_resValid (s : State) (v : Word) : (s.setCcrc v).resValid = s.resValid := rfl
@[simp] theorem State.setCcrc_resKind (s : State) (v : Word) : (s.setCcrc v).resKind = s.resKind := rfl
@[simp] theorem State.setCcrc_resField (s : State) (v : Word) : (s.setCcrc v).resField = s.resField := rfl
@[simp] theorem State.setCcrc_tbl (s : State) (v : Word) : (s.setCcrc v).tbl = s.tbl := rfl
@[simp] theorem State.setCcrc_evt (s : State) (v : Word) : (s.setCcrc v).evt = s.evt := rfl
@[simp] theorem State.setCcrc_written (s : State) (v : Word) : (s.setCcrc v).written = { s.written with ccrc := true } := rfl
@[simp] theorem State.setCcrc_params (s : State) (v : Word) : (s.setCcrc v).params = s.params := rfl
@[simp] theorem State.setCcrc_src (s : State) (v : Word) : (s.setCcrc v).src = s.src := rfl
@[simp] theorem State.setCcrc_inputs (s : State) (v : Word) : (s.setCcrc v).inputs = s.inputs := rfl

@[simp] theorem State.setCnt_crc (s : State) (v : Word) : (s.setCnt v).crc = s.crc := rfl
@[simp] theorem State.setCnt_len (s : State) (v : Word) : (s.setCnt v).len = s.len := rfl
@[simp] theorem State.setCnt_typ (s : State) (v : Word) : (s.setCnt v).typ = s.typ := rfl
@[simp] theorem State.setCnt_scrc (s : State) (v : Word) : (s.setCnt v).scrc = s.scrc := rfl
@[simp] theorem State.setCnt_ccrc (s : State) (v : Word) : (s.setCnt v).ccrc = s.ccrc := rfl
@[simp] theorem State.setCnt_cnt (s : State) (v : Word) : (s.setCnt v).cnt = v := rfl
@[simp] theorem State.setCnt_idx (s : State) (v : Word) : (s.setCnt v).idx = s.idx := rfl
@[simp] theorem State.setCnt_tdat (s : State) (v : Word) : (s.setCnt v).tdat = s.tdat := rfl
@[simp] theorem State.setCnt_pos (s : State) (v : Word) : (s.setCnt v).pos = s.pos := rfl
@[simp] theorem State.setCnt_ph (s : State) (v : Word) : (s.setCnt v).ph = s.ph := rfl
@[simp] theorem State.setCnt_k (s : State) (v : Word) : (s.setCnt v).k = s.k := rfl
@[simp] theorem State.setCnt_sigok (s : State) (v : Word) : (s.setCnt v).sigok = s.sigok := rfl
@[simp] theorem State.setCnt_tblValid (s : State) (v : Word) : (s.setCnt v).tblValid = s.tblValid := rfl
@[simp] theorem State.setCnt_resValid (s : State) (v : Word) : (s.setCnt v).resValid = s.resValid := rfl
@[simp] theorem State.setCnt_resKind (s : State) (v : Word) : (s.setCnt v).resKind = s.resKind := rfl
@[simp] theorem State.setCnt_resField (s : State) (v : Word) : (s.setCnt v).resField = s.resField := rfl
@[simp] theorem State.setCnt_tbl (s : State) (v : Word) : (s.setCnt v).tbl = s.tbl := rfl
@[simp] theorem State.setCnt_evt (s : State) (v : Word) : (s.setCnt v).evt = s.evt := rfl
@[simp] theorem State.setCnt_written (s : State) (v : Word) : (s.setCnt v).written = { s.written with cnt := true } := rfl
@[simp] theorem State.setCnt_params (s : State) (v : Word) : (s.setCnt v).params = s.params := rfl
@[simp] theorem State.setCnt_src (s : State) (v : Word) : (s.setCnt v).src = s.src := rfl
@[simp] theorem State.setCnt_inputs (s : State) (v : Word) : (s.setCnt v).inputs = s.inputs := rfl

@[simp] theorem State.setTdat_crc (s : State) (v : Word) : (s.setTdat v).crc = s.crc := rfl
@[simp] theorem State.setTdat_len (s : State) (v : Word) : (s.setTdat v).len = s.len := rfl
@[simp] theorem State.setTdat_typ (s : State) (v : Word) : (s.setTdat v).typ = s.typ := rfl
@[simp] theorem State.setTdat_scrc (s : State) (v : Word) : (s.setTdat v).scrc = s.scrc := rfl
@[simp] theorem State.setTdat_ccrc (s : State) (v : Word) : (s.setTdat v).ccrc = s.ccrc := rfl
@[simp] theorem State.setTdat_cnt (s : State) (v : Word) : (s.setTdat v).cnt = s.cnt := rfl
@[simp] theorem State.setTdat_idx (s : State) (v : Word) : (s.setTdat v).idx = s.idx := rfl
@[simp] theorem State.setTdat_tdat (s : State) (v : Word) : (s.setTdat v).tdat = v := rfl
@[simp] theorem State.setTdat_pos (s : State) (v : Word) : (s.setTdat v).pos = s.pos := rfl
@[simp] theorem State.setTdat_ph (s : State) (v : Word) : (s.setTdat v).ph = s.ph := rfl
@[simp] theorem State.setTdat_k (s : State) (v : Word) : (s.setTdat v).k = s.k := rfl
@[simp] theorem State.setTdat_sigok (s : State) (v : Word) : (s.setTdat v).sigok = s.sigok := rfl
@[simp] theorem State.setTdat_tblValid (s : State) (v : Word) : (s.setTdat v).tblValid = s.tblValid := rfl
@[simp] theorem State.setTdat_resValid (s : State) (v : Word) : (s.setTdat v).resValid = s.resValid := rfl
@[simp] theorem State.setTdat_resKind (s : State) (v : Word) : (s.setTdat v).resKind = s.resKind := rfl
@[simp] theorem State.setTdat_resField (s : State) (v : Word) : (s.setTdat v).resField = s.resField := rfl
@[simp] theorem State.setTdat_tbl (s : State) (v : Word) : (s.setTdat v).tbl = s.tbl := rfl
@[simp] theorem State.setTdat_evt (s : State) (v : Word) : (s.setTdat v).evt = s.evt := rfl
@[simp] theorem State.setTdat_written (s : State) (v : Word) : (s.setTdat v).written = { s.written with tdat := true } := rfl
@[simp] theorem State.setTdat_params (s : State) (v : Word) : (s.setTdat v).params = s.params := rfl
@[simp] theorem State.setTdat_src (s : State) (v : Word) : (s.setTdat v).src = s.src := rfl
@[simp] theorem State.setTdat_inputs (s : State) (v : Word) : (s.setTdat v).inputs = s.inputs := rfl

@[simp] theorem State.setSigok_crc (s : State) (v : Bool) : (s.setSigok v).crc = s.crc := rfl
@[simp] theorem State.setSigok_len (s : State) (v : Bool) : (s.setSigok v).len = s.len := rfl
@[simp] theorem State.setSigok_typ (s : State) (v : Bool) : (s.setSigok v).typ = s.typ := rfl
@[simp] theorem State.setSigok_scrc (s : State) (v : Bool) : (s.setSigok v).scrc = s.scrc := rfl
@[simp] theorem State.setSigok_ccrc (s : State) (v : Bool) : (s.setSigok v).ccrc = s.ccrc := rfl
@[simp] theorem State.setSigok_cnt (s : State) (v : Bool) : (s.setSigok v).cnt = s.cnt := rfl
@[simp] theorem State.setSigok_idx (s : State) (v : Bool) : (s.setSigok v).idx = s.idx := rfl
@[simp] theorem State.setSigok_tdat (s : State) (v : Bool) : (s.setSigok v).tdat = s.tdat := rfl
@[simp] theorem State.setSigok_pos (s : State) (v : Bool) : (s.setSigok v).pos = s.pos := rfl
@[simp] theorem State.setSigok_ph (s : State) (v : Bool) : (s.setSigok v).ph = s.ph := rfl
@[simp] theorem State.setSigok_k (s : State) (v : Bool) : (s.setSigok v).k = s.k := rfl
@[simp] theorem State.setSigok_sigok (s : State) (v : Bool) : (s.setSigok v).sigok = v := rfl
@[simp] theorem State.setSigok_tblValid (s : State) (v : Bool) : (s.setSigok v).tblValid = s.tblValid := rfl
@[simp] theorem State.setSigok_resValid (s : State) (v : Bool) : (s.setSigok v).resValid = s.resValid := rfl
@[simp] theorem State.setSigok_resKind (s : State) (v : Bool) : (s.setSigok v).resKind = s.resKind := rfl
@[simp] theorem State.setSigok_resField (s : State) (v : Bool) : (s.setSigok v).resField = s.resField := rfl
@[simp] theorem State.setSigok_tbl (s : State) (v : Bool) : (s.setSigok v).tbl = s.tbl := rfl
@[simp] theorem State.setSigok_evt (s : State) (v : Bool) : (s.setSigok v).evt = s.evt := rfl
@[simp] theorem State.setSigok_written (s : State) (v : Bool) : (s.setSigok v).written = s.written := rfl
@[simp] theorem State.setSigok_params (s : State) (v : Bool) : (s.setSigok v).params = s.params := rfl
@[simp] theorem State.setSigok_src (s : State) (v : Bool) : (s.setSigok v).src = s.src := rfl
@[simp] theorem State.setSigok_inputs (s : State) (v : Bool) : (s.setSigok v).inputs = s.inputs := rfl

@[simp] theorem State.setIdx_crc (s : State) (v : Nat) : (s.setIdx v).crc = s.crc := rfl
@[simp] theorem State.setIdx_len (s : State) (v : Nat) : (s.setIdx v).len = s.len := rfl
@[simp] theorem State.setIdx_typ (s : State) (v : Nat) : (s.setIdx v).typ = s.typ := rfl
@[simp] theorem State.setIdx_scrc (s : State) (v : Nat) : (s.setIdx v).scrc = s.scrc := rfl
@[simp] theorem State.setIdx_ccrc (s : State) (v : Nat) : (s.setIdx v).ccrc = s.ccrc := rfl
@[simp] theorem State.setIdx_cnt (s : State) (v : Nat) : (s.setIdx v).cnt = s.cnt := rfl
@[simp] theorem State.setIdx_idx (s : State) (v : Nat) : (s.setIdx v).idx = v := rfl
@[simp] theorem State.setIdx_tdat (s : State) (v : Nat) : (s.setIdx v).tdat = s.tdat := rfl
@[simp] theorem State.setIdx_pos (s : State) (v : Nat) : (s.setIdx v).pos = s.pos := rfl
@[simp] theorem State.setIdx_ph (s : State) (v : Nat) : (s.setIdx v).ph = s.ph := rfl
@[simp] theorem State.setIdx_k (s : State) (v : Nat) : (s.setIdx v).k = s.k := rfl
@[simp] theorem State.setIdx_sigok (s : State) (v : Nat) : (s.setIdx v).sigok = s.sigok := rfl
@[simp] theorem State.setIdx_tblValid (s : State) (v : Nat) : (s.setIdx v).tblValid = s.tblValid := rfl
@[simp] theorem State.setIdx_resValid (s : State) (v : Nat) : (s.setIdx v).resValid = s.resValid := rfl
@[simp] theorem State.setIdx_resKind (s : State) (v : Nat) : (s.setIdx v).resKind = s.resKind := rfl
@[simp] theorem State.setIdx_resField (s : State) (v : Nat) : (s.setIdx v).resField = s.resField := rfl
@[simp] theorem State.setIdx_tbl (s : State) (v : Nat) : (s.setIdx v).tbl = s.tbl := rfl
@[simp] theorem State.setIdx_evt (s : State) (v : Nat) : (s.setIdx v).evt = s.evt := rfl
@[simp] theorem State.setIdx_written (s : State) (v : Nat) : (s.setIdx v).written = s.written := rfl
@[simp] theorem State.setIdx_params (s : State) (v : Nat) : (s.setIdx v).params = s.params := rfl
@[simp] theorem State.setIdx_src (s : State) (v : Nat) : (s.setIdx v).src = s.src := rfl
@[simp] theorem State.setIdx_inputs (s : State) (v : Nat) : (s.setIdx v).inputs = s.inputs := rfl

@[simp] theorem State.setSrc_crc (s : State) (v : List Byte) : (s.setSrc v).crc = s.crc := rfl
@[simp] theorem State.setSrc_len (s : State) (v : List Byte) : (s.setSrc v).len = s.len := rfl
@[simp] theorem State.setSrc_typ (s : State) (v : List Byte) : (s.setSrc v).typ = s.typ := rfl
@[simp] theorem State.setSrc_scrc (s : State) (v : List Byte) : (s.setSrc v).scrc = s.scrc := rfl
@[simp] theorem State.setSrc_ccrc (s : State) (v : List Byte) : (s.setSrc v).ccrc = s.ccrc := rfl
@[simp] theorem State.setSrc_cnt (s : State) (v : List Byte) : (s.setSrc v).cnt = s.cnt := rfl
@[simp] theorem State.setSrc_idx (s : State) (v : List Byte) : (s.setSrc v).idx = s.idx := rfl
@[simp] theorem State.setSrc_tdat (s : State) (v : List Byte) : (s.setSrc v).tdat = s.tdat := rfl
@[simp] theorem State.setSrc_pos (s : State) (v : List Byte) : (s.setSrc v).pos = s.pos := rfl
@[simp] theorem State.setSrc_ph (s : State) (v : List Byte) : (s.setSrc v).ph = s.ph := rfl
@[simp] theorem State.setSrc_k (s : State) (v : List Byte) : (s.setSrc v).k = s.k := rfl
@[simp] theorem State.setSrc_sigok (s : State) (v : List Byte) : (s.setSrc v).sigok = s.sigok := rfl
@[simp] theorem State.setSrc_tblValid (s : State) (v : List Byte) : (s.setSrc v).tblValid = s.tblValid := rfl
@[simp] theorem State.setSrc_resValid (s : State) (v : List Byte) : (s.setSrc v).resValid = s.resValid := rfl
@[simp] theorem State.setSrc_resKind (s : State) (v : List Byte) : (s.setSrc v).resKind = s.resKind := rfl
@[simp] theorem State.setSrc_resField (s : State) (v : List Byte) : (s.setSrc v).resField = s.resField := rfl
@[simp] theorem State.setSrc_tbl (s : State) (v : List Byte) : (s.setSrc v).tbl = s.tbl := rfl
@[simp] theorem State.setSrc_evt (s : State) (v : List Byte) : (s.setSrc v).evt = s.evt := rfl
@[simp] theorem State.setSrc_written (s : State) (v : List Byte) : (s.setSrc v).written = s.written := rfl
@[simp] theorem State.setSrc_params (s : State) (v : List Byte) : (s.setSrc v).params = s.params := rfl
@[simp] theorem State.setSrc_src (s : State) (v : List Byte) : (s.setSrc v).src = v := rfl
@[simp] theorem State.setSrc_inputs (s : State) (v : List Byte) : (s.setSrc v).inputs = s.inputs := rfl

@[simp] theorem State.setInputs_crc (s : State) (v : List Input) : (s.setInputs v).crc = s.crc := rfl
@[simp] theorem State.setInputs_len (s : State) (v : List Input) : (s.setInputs v).len = s.len := rfl
@[simp] theorem State.setInputs_typ (s : State) (v : List Input) : (s.setInputs v).typ = s.typ := rfl
@[simp] theorem State.setInputs_scrc (s : State) (v : List Input) : (s.setInputs v).scrc = s.scrc := rfl
@[simp] theorem State.setInputs_ccrc (s : State) (v : List Input) : (s.setInputs v).ccrc = s.ccrc := rfl
@[simp] theorem State.setInputs_cnt (s : State) (v : List Input) : (s.setInputs v).cnt = s.cnt := rfl
@[simp] theorem State.setInputs_idx (s : State) (v : List Input) : (s.setInputs v).idx = s.idx := rfl
@[simp] theorem State.setInputs_tdat (s : State) (v : List Input) : (s.setInputs v).tdat = s.tdat := rfl
@[simp] theorem State.setInputs_pos (s : State) (v : List Input) : (s.setInputs v).pos = s.pos := rfl
@[simp] theorem State.setInputs_ph (s : State) (v : List Input) : (s.setInputs v).ph = s.ph := rfl
@[simp] theorem State.setInputs_k (s : State) (v : List Input) : (s.setInputs v).k = s.k := rfl
@[simp] theorem State.setInputs_sigok (s : State) (v : List Input) : (s.setInputs v).sigok = s.sigok := rfl
@[simp] theorem State.setInputs_tblValid (s : State) (v : List Input) : (s.setInputs v).tblValid = s.tblValid := rfl
@[simp] theorem State.setInputs_resValid (s : State) (v : List Input) : (s.setInputs v).resValid = s.resValid := rfl
@[simp] theorem State.setInputs_resKind (s : State) (v : List Input) : (s.setInputs v).resKind = s.resKind := rfl
@[simp] theorem State.setInputs_resField (s : State) (v : List Input) : (s.setInputs v).resField = s.resField := rfl
@[simp] theorem State.setInputs_tbl (s : State) (v : List Input) : (s.setInputs v).tbl = s.tbl := rfl
@[simp] theorem State.setInputs_evt (s : State) (v : List Input) : (s.setInputs v).evt = s.evt := rfl
@[simp] theorem State.setInputs_written (s : State) (v : List Input) : (s.setInputs v).written = s.written := rfl
@[simp] theorem State.setInputs_params (s : State) (v : List Input) : (s.setInputs v).params = s.params := rfl
@[simp] theorem State.setInputs_src (s : State) (v : List Input) : (s.setInputs v).src = s.src := rfl
@[simp] theorem State.setInputs_inputs (s : State) (v : List Input) : (s.setInputs v).inputs = v := rfl

@[simp] theorem State.setPh_crc (s : State) (p : Phase) : (s.setPh p).crc = s.crc := rfl
@[simp] theorem State.setPh_len (s : State) (p : Phase) : (s.setPh p).len = s.len := rfl
@[simp] theorem State.setPh_typ (s : State) (p : Phase) : (s.setPh p).typ = s.typ := rfl
@[simp] theorem State.setPh_scrc (s : State) (p : Phase) : (s.setPh p).scrc = s.scrc := rfl
@[simp] theorem State.setPh_ccrc (s : State) (p : Phase) : (s.setPh p).ccrc = s.ccrc := rfl
@[simp] theorem State.setPh_cnt (s : State) (p : Phase) : (s.setPh p).cnt = s.cnt := rfl
@[simp] theorem State.setPh_idx (s : State) (p : Phase) : (s.setPh p).idx = s.idx := rfl
@[simp] theorem State.setPh_tdat (s : State) (p : Phase) : (s.setPh p).tdat = s.tdat := rfl
@[simp] theorem State.setPh_pos (s : State) (p : Phase) : (s.setPh p).pos = s.pos := rfl
@[simp] theorem State.setPh_ph (s : State) (p : Phase) : (s.setPh p).ph = p := rfl
@[simp] theorem State.setPh_k (s : State) (p : Phase) : (s.setPh p).k = s.k := rfl
@[simp] theorem State.setPh_sigok (s : State) (p : Phase) : (s.setPh p).sigok = s.sigok := rfl
@[simp] theorem State.setPh_tblValid (s : State) (p : Phase) : (s.setPh p).tblValid = s.tblValid := rfl
@[simp] theorem State.setPh_resValid (s : State) (p : Phase) : (s.setPh p).resValid = s.resValid := rfl
@[simp] theorem State.setPh_resKind (s : State) (p : Phase) : (s.setPh p).resKind = s.resKind := rfl
@[simp] theorem State.setPh_resField (s : State) (p : Phase) : (s.setPh p).resField = s.resField := rfl
@[simp] theorem State.setPh_tbl (s : State) (p : Phase) : (s.setPh p).tbl = s.tbl := rfl
@[simp] theorem State.setPh_evt (s : State) (p : Phase) : (s.setPh p).evt = s.evt := rfl
@[simp] theorem State.setPh_written (s : State) (p : Phase) : (s.setPh p).written = s.written := rfl
@[simp] theorem State.setPh_params (s : State) (p : Phase) : (s.setPh p).params = s.params := rfl
@[simp] theorem State.setPh_src (s : State) (p : Phase) : (s.setPh p).src = s.src := rfl
@[simp] theorem State.setPh_inputs (s : State) (p : Phase) : (s.setPh p).inputs = s.inputs := rfl

@[simp] theorem State.nextByte_crc (s : State) : (s.nextByte).crc = s.crc := rfl
@[simp] theorem State.nextByte_len (s : State) : (s.nextByte).len = s.len := rfl
@[simp] theorem State.nextByte_typ (s : State) : (s.nextByte).typ = s.typ := rfl
@[simp] theorem State.nextByte_scrc (s : State) : (s.nextByte).scrc = s.scrc := rfl
@[simp] theorem State.nextByte_ccrc (s : State) : (s.nextByte).ccrc = s.ccrc := rfl
@[simp] theorem State.nextByte_cnt (s : State) : (s.nextByte).cnt = s.cnt := rfl
@[simp] theorem State.nextByte_idx (s : State) : (s.nextByte).idx = s.idx := rfl
@[simp] theorem State.nextByte_tdat (s : State) : (s.nextByte).tdat = s.tdat := rfl
@[simp] theorem State.nextByte_pos (s : State) : (s.nextByte).pos = s.pos := rfl
@[simp] theorem State.nextByte_ph (s : State) : (s.nextByte).ph = s.ph := rfl
@[simp] theorem State.nextByte_k (s : State) : (s.nextByte).k = s.k + 1#3 := rfl
@[simp] theorem State.nextByte_sigok (s : State) : (s.nextByte).sigok = s.sigok := rfl
@[simp] theorem State.nextByte_tblValid (s : State) : (s.nextByte).tblValid = s.tblValid := rfl
@[simp] theorem State.nextByte_resValid (s : State) : (s.nextByte).resValid = s.resValid := rfl
@[simp] theorem State.nextByte_resKind (s : State) : (s.nextByte).resKind = s.resKind := rfl
@[simp] theorem State.nextByte_resField (s : State) : (s.nextByte).resField = s.resField := rfl
@[simp] theorem State.nextByte_tbl (s : State) : (s.nextByte).tbl = s.tbl := rfl
@[simp] theorem State.nextByte_evt (s : State) : (s.nextByte).evt = s.evt := rfl
@[simp] theorem State.nextByte_written (s : State) : (s.nextByte).written = s.written := rfl
@[simp] theorem State.nextByte_params (s : State) : (s.nextByte).params = s.params := rfl
@[simp] theorem State.nextByte_src (s : State) : (s.nextByte).src = s.src := rfl
@[simp] theorem State.nextByte_inputs (s : State) : (s.nextByte).inputs = s.inputs := rfl

@[simp] theorem State.enter_crc (s : State) (p : Phase) : (s.enter p).crc = s.crc := rfl
@[simp] theorem State.enter_len (s : State) (p : Phase) : (s.enter p).len = s.len := rfl
@[simp] theorem State.enter_typ (s : State) (p : Phase) : (s.enter p).typ = s.typ := rfl
@[simp] theorem State.enter_scrc (s : State) (p : Phase) : (s.enter p).scrc = s.scrc := rfl
@[simp] theorem State.enter_ccrc (s : State) (p : Phase) : (s.enter p).ccrc = s.ccrc := rfl
@[simp] theorem State.enter_cnt (s : State) (p : Phase) : (s.enter p).cnt = s.cnt := rfl
@[simp] theorem State.enter_idx (s : State) (p : Phase) : (s.enter p).idx = s.idx := rfl
@[simp] theorem State.enter_tdat (s : State) (p : Phase) : (s.enter p).tdat = s.tdat := rfl
@[simp] theorem State.enter_pos (s : State) (p : Phase) : (s.enter p).pos = s.pos := rfl
@[simp] theorem State.enter_ph (s : State) (p : Phase) : (s.enter p).ph = p := rfl
@[simp] theorem State.enter_k (s : State) (p : Phase) : (s.enter p).k = 0#3 := rfl
@[simp] theorem State.enter_sigok (s : State) (p : Phase) : (s.enter p).sigok = s.sigok := rfl
@[simp] theorem State.enter_tblValid (s : State) (p : Phase) : (s.enter p).tblValid = s.tblValid := rfl
@[simp] theorem State.enter_resValid (s : State) (p : Phase) : (s.enter p).resValid = s.resValid := rfl
@[simp] theorem State.enter_resKind (s : State) (p : Phase) : (s.enter p).resKind = s.resKind := rfl
@[simp] theorem State.enter_resField (s : State) (p : Phase) : (s.enter p).resField = s.resField := rfl
@[simp] theorem State.enter_tbl (s : State) (p : Phase) : (s.enter p).tbl = s.tbl := rfl
@[simp] theorem State.enter_evt (s : State) (p : Phase) : (s.enter p).evt = s.evt := rfl
@[simp] theorem State.enter_written (s : State) (p : Phase) : (s.enter p).written = s.written := rfl
@[simp] theorem State.enter_params (s : State) (p : Phase) : (s.enter p).params = s.params := rfl
@[simp] theorem State.enter_src (s : State) (p : Phase) : (s.enter p).src = s.src := rfl
@[simp] theorem State.enter_inputs (s : State) (p : Phase) : (s.enter p).inputs = s.inputs := rfl

@[simp] theorem State.terminate_crc (s : State) (kd : ResKind) (f : ResField) : (s.terminate kd f).crc = s.crc := rfl
@[simp] theorem State.terminate_len (s : State) (kd : ResKind) (f : ResField) : (s.terminate kd f).len = s.len := rfl
@[simp] theorem State.terminate_typ (s : State) (kd : ResKind) (f : ResField) : (s.terminate kd f).typ = s.typ := rfl
@[simp] theorem State.terminate_scrc (s : State) (kd : ResKind) (f : ResField) : (s.terminate kd f).scrc = s.scrc := rfl
@[simp] theorem State.terminate_ccrc (s : State) (kd : ResKind) (f : ResField) : (s.terminate kd f).ccrc = s.ccrc := rfl
@[simp] theorem State.terminate_cnt (s : State) (kd : ResKind) (f : ResField) : (s.terminate kd f).cnt = s.cnt := rfl
@[simp] theorem State.terminate_idx (s : State) (kd : ResKind) (f : ResField) : (s.terminate kd f).idx = s.idx := rfl
@[simp] theorem State.terminate_tdat (s : State) (kd : ResKind) (f : ResField) : (s.terminate kd f).tdat = s.tdat := rfl
@[simp] theorem State.terminate_pos (s : State) (kd : ResKind) (f : ResField) : (s.terminate kd f).pos = s.pos := rfl
@[simp] theorem State.terminate_ph (s : State) (kd : ResKind) (f : ResField) : (s.terminate kd f).ph = Phase.idle := rfl
@[simp] theorem State.terminate_k (s : State) (kd : ResKind) (f : ResField) : (s.terminate kd f).k = 0#3 := rfl
@[simp] theorem State.terminate_sigok (s : State) (kd : ResKind) (f : ResField) : (s.terminate kd f).sigok = s.sigok := rfl
@[simp] theorem State.terminate_tblValid (s : State) (kd : ResKind) (f : ResField) : (s.terminate kd f).tblValid = s.tblValid := rfl
@[simp] theorem State.terminate_resValid (s : State) (kd : ResKind) (f : ResField) : (s.terminate kd f).resValid = true := rfl
@[simp] theorem State.terminate_resKind (s : State) (kd : ResKind) (f : ResField) : (s.terminate kd f).resKind = kd := rfl
@[simp] theorem State.terminate_resField (s : State) (kd : ResKind) (f : ResField) : (s.terminate kd f).resField = f := rfl
@[simp] theorem State.terminate_tbl (s : State) (kd : ResKind) (f : ResField) : (s.terminate kd f).tbl = s.tbl := rfl
@[simp] theorem State.terminate_evt (s : State) (kd : ResKind) (f : ResField) : (s.terminate kd f).evt = s.evt := rfl
@[simp] theorem State.terminate_written (s : State) (kd : ResKind) (f : ResField) : (s.terminate kd f).written = { s.written with resKind := true, resField := true } := rfl
@[simp] theorem State.terminate_params (s : State) (kd : ResKind) (f : ResField) : (s.terminate kd f).params = s.params := rfl
@[simp] theorem State.terminate_src (s : State) (kd : ResKind) (f : ResField) : (s.terminate kd f).src = s.src := rfl
@[simp] theorem State.terminate_inputs (s : State) (kd : ResKind) (f : ResField) : (s.terminate kd f).inputs = s.inputs := rfl

@[simp] theorem State.foldByte_crc (s : State) (b : Byte) : (s.foldByte b).crc = upd s.tbl s.crc b := rfl
@[simp] theorem State.foldByte_len (s : State) (b : Byte) : (s.foldByte b).len = s.len := rfl
@[simp] theorem State.foldByte_typ (s : State) (b : Byte) : (s.foldByte b).typ = s.typ := rfl
@[simp] theorem State.foldByte_scrc (s : State) (b : Byte) : (s.foldByte b).scrc = s.scrc := rfl
@[simp] theorem State.foldByte_ccrc (s : State) (b : Byte) : (s.foldByte b).ccrc = s.ccrc := rfl
@[simp] theorem State.foldByte_cnt (s : State) (b : Byte) : (s.foldByte b).cnt = s.cnt := rfl
@[simp] theorem State.foldByte_idx (s : State) (b : Byte) : (s.foldByte b).idx = s.idx := rfl
@[simp] theorem State.foldByte_tdat (s : State) (b : Byte) : (s.foldByte b).tdat = s.tdat := rfl
@[simp] theorem State.foldByte_pos (s : State) (b : Byte) : (s.foldByte b).pos = s.pos := rfl
@[simp] theorem State.foldByte_ph (s : State) (b : Byte) : (s.foldByte b).ph = s.ph := rfl
@[simp] theorem State.foldByte_k (s : State) (b : Byte) : (s.foldByte b).k = s.k := rfl
@[simp] theorem State.foldByte_sigok (s : State) (b : Byte) : (s.foldByte b).sigok = s.sigok := rfl
@[simp] theorem State.foldByte_tblValid (s : State) (b : Byte) : (s.foldByte b).tblValid = s.tblValid := rfl
@[simp] theorem State.foldByte_resValid (s : State) (b : Byte) : (s.foldByte b).resValid = s.resValid := rfl
@[simp] theorem State.foldByte_resKind (s : State) (b : Byte) : (s.foldByte b).resKind = s.resKind := rfl
@[simp] theorem State.foldByte_resField (s : State) (b : Byte) : (s.foldByte b).resField = s.resField := rfl
@[simp] theorem State.foldByte_tbl (s : State) (b : Byte) : (s.foldByte b).tbl = s.tbl := rfl
@[simp] theorem State.foldByte_evt (s : State) (b : Byte) : (s.foldByte b).evt = s.evt := rfl
@[simp] theorem State.foldByte_written (s : State) (b : Byte) : (s.foldByte b).written = { s.written with crc := true } := rfl
@[simp] theorem State.foldByte_params (s : State) (b : Byte) : (s.foldByte b).params = s.params := rfl
@[simp] theorem State.foldByte_src (s : State) (b : Byte) : (s.foldByte b).src = s.src := rfl
@[simp] theorem State.foldByte_inputs (s : State) (b : Byte) : (s.foldByte b).inputs = s.inputs := rfl

@[simp] theorem State.emit_crc (s : State) (e : EvtRec) : (s.emit e).crc = s.crc := rfl
@[simp] theorem State.emit_len (s : State) (e : EvtRec) : (s.emit e).len = s.len := rfl
@[simp] theorem State.emit_typ (s : State) (e : EvtRec) : (s.emit e).typ = s.typ := rfl
@[simp] theorem State.emit_scrc (s : State) (e : EvtRec) : (s.emit e).scrc = s.scrc := rfl
@[simp] theorem State.emit_ccrc (s : State) (e : EvtRec) : (s.emit e).ccrc = s.ccrc := rfl
@[simp] theorem State.emit_cnt (s : State) (e : EvtRec) : (s.emit e).cnt = s.cnt := rfl
@[simp] theorem State.emit_idx (s : State) (e : EvtRec) : (s.emit e).idx = s.idx := rfl
@[simp] theorem State.emit_tdat (s : State) (e : EvtRec) : (s.emit e).tdat = s.tdat := rfl
@[simp] theorem State.emit_pos (s : State) (e : EvtRec) : (s.emit e).pos = s.pos := rfl
@[simp] theorem State.emit_ph (s : State) (e : EvtRec) : (s.emit e).ph = s.ph := rfl
@[simp] theorem State.emit_k (s : State) (e : EvtRec) : (s.emit e).k = s.k := rfl
@[simp] theorem State.emit_sigok (s : State) (e : EvtRec) : (s.emit e).sigok = s.sigok := rfl
@[simp] theorem State.emit_tblValid (s : State) (e : EvtRec) : (s.emit e).tblValid = s.tblValid := rfl
@[simp] theorem State.emit_resValid (s : State) (e : EvtRec) : (s.emit e).resValid = s.resValid := rfl
@[simp] theorem State.emit_resKind (s : State) (e : EvtRec) : (s.emit e).resKind = s.resKind := rfl
@[simp] theorem State.emit_resField (s : State) (e : EvtRec) : (s.emit e).resField = s.resField := rfl
@[simp] theorem State.emit_tbl (s : State) (e : EvtRec) : (s.emit e).tbl = s.tbl := rfl
@[simp] theorem State.emit_evt (s : State) (e : EvtRec) : (s.emit e).evt = s.evt ++ [e] := rfl
@[simp] theorem State.emit_written (s : State) (e : EvtRec) : (s.emit e).written = s.written := rfl
@[simp] theorem State.emit_params (s : State) (e : EvtRec) : (s.emit e).params = s.params := rfl
@[simp] theorem State.emit_src (s : State) (e : EvtRec) : (s.emit e).src = s.src := rfl
@[simp] theorem State.emit_inputs (s : State) (e : EvtRec) : (s.emit e).inputs = s.inputs := rfl

@[simp] theorem State.advance_crc (s : State) : (s.advance).crc = s.crc := rfl
@[simp] theorem State.advance_len (s : State) : (s.advance).len = s.len := rfl
@[simp] theorem State.advance_typ (s : State) : (s.advance).typ = s.typ := rfl
@[simp] theorem State.advance_scrc (s : State) : (s.advance).scrc = s.scrc := rfl
@[simp] theorem State.advance_ccrc (s : State) : (s.advance).ccrc = s.ccrc := rfl
@[simp] theorem State.advance_cnt (s : State) : (s.advance).cnt = s.cnt := rfl
@[simp] theorem State.advance_idx (s : State) : (s.advance).idx = s.idx := rfl
@[simp] theorem State.advance_tdat (s : State) : (s.advance).tdat = s.tdat := rfl
@[simp] theorem State.advance_pos (s : State) : (s.advance).pos = s.pos + 1 := rfl
@[simp] theorem State.advance_ph (s : State) : (s.advance).ph = s.ph := rfl
@[simp] theorem State.advance_k (s : State) : (s.advance).k = s.k := rfl
@[simp] theorem State.advance_sigok (s : State) : (s.advance).sigok = s.sigok := rfl
@[simp] theorem State.advance_tblValid (s : State) : (s.advance).tblValid = s.tblValid := rfl
@[simp] theorem State.advance_resValid (s : State) : (s.advance).resValid = s.resValid := rfl
@[simp] theorem State.advance_resKind (s : State) : (s.advance).resKind = s.resKind := rfl
@[simp] theorem State.advance_resField (s : State) : (s.advance).resField = s.resField := rfl
@[simp] theorem State.advance_tbl (s : State) : (s.advance).tbl = s.tbl := rfl
@[simp] theorem State.advance_evt (s : State) : (s.advance).evt = s.evt := rfl
@[simp] theorem State.advance_written (s : State) : (s.advance).written = s.written := rfl
@[simp] theorem State.advance_params (s : State) : (s.advance).params = s.params := rfl
@[simp] theorem State.advance_src (s : State) : (s.advance).src = s.src := rfl
@[simp] theorem State.advance_inputs (s : State) : (s.advance).inputs = s.inputs := rfl

@[simp] theorem State.buildTbl_crc (s : State) : (s.buildTbl).crc = s.crc := rfl
@[simp] theorem State.buildTbl_len (s : State) : (s.buildTbl).len = s.len := rfl
@[simp] theorem State.buildTbl_typ (s : State) : (s.buildTbl).typ = s.typ := rfl
@[simp] theorem State.buildTbl_scrc (s : State) : (s.buildTbl).scrc = s.scrc := rfl
@[simp] theorem State.buildTbl_ccrc (s : State) : (s.buildTbl).ccrc = s.ccrc := rfl
@[simp] theorem State.buildTbl_cnt (s : State) : (s.buildTbl).cnt = s.cnt := rfl
@[simp] theorem State.buildTbl_idx (s : State) : (s.buildTbl).idx = s.idx := rfl
@[simp] theorem State.buildTbl_tdat (s : State) : (s.buildTbl).tdat = s.tdat := rfl
@[simp] theorem State.buildTbl_pos (s : State) : (s.buildTbl).pos = s.pos := rfl
@[simp] theorem State.buildTbl_ph (s : State) : (s.buildTbl).ph = s.ph := rfl
@[simp] theorem State.buildTbl_k (s : State) : (s.buildTbl).k = s.k := rfl
@[simp] theorem State.buildTbl_sigok (s : State) : (s.buildTbl).sigok = s.sigok := rfl
@[simp] theorem State.buildTbl_tblValid (s : State) : (s.buildTbl).tblValid = true := rfl
@[simp] theorem State.buildTbl_resValid (s : State) : (s.buildTbl).resValid = s.resValid := rfl
@[simp] theorem State.buildTbl_resKind (s : State) : (s.buildTbl).resKind = s.resKind := rfl
@[simp] theorem State.buildTbl_resField (s : State) : (s.buildTbl).resField = s.resField := rfl
@[simp] theorem State.buildTbl_tbl (s : State) : (s.buildTbl).tbl = buildTable := rfl
@[simp] theorem State.buildTbl_evt (s : State) : (s.buildTbl).evt = s.evt := rfl
@[simp] theorem State.buildTbl_written (s : State) : (s.buildTbl).written = s.written := rfl
@[simp] theorem State.buildTbl_params (s : State) : (s.buildTbl).params = s.params := rfl
@[simp] theorem State.buildTbl_src (s : State) : (s.buildTbl).src = s.src := rfl
@[simp] theorem State.buildTbl_inputs (s : State) : (s.buildTbl).inputs = s.inputs := rfl

@[simp] theorem State.launch_crc (s : State) : (s.launch).crc = s.crc := rfl
@[simp] theorem State.launch_len (s : State) : (s.launch).len = s.len := rfl
@[simp] theorem State.launch_typ (s : State) : (s.launch).typ = s.typ := rfl
@[simp] theorem State.launch_scrc (s : State) : (s.launch).scrc = s.scrc := rfl
@[simp] theorem State.launch_ccrc (s : State) : (s.launch).ccrc = s.ccrc := rfl
@[simp] theorem State.launch_cnt (s : State) : (s.launch).cnt = s.cnt := rfl
@[simp] theorem State.launch_idx (s : State) : (s.launch).idx = 0 := rfl
@[simp] theorem State.launch_tdat (s : State) : (s.launch).tdat = s.tdat := rfl
@[simp] theorem State.launch_pos (s : State) : (s.launch).pos = 0 := rfl
@[simp] theorem State.launch_ph (s : State) : (s.launch).ph = Phase.sig := rfl
@[simp] theorem State.launch_k (s : State) : (s.launch).k = 0#3 := rfl
@[simp] theorem State.launch_sigok (s : State) : (s.launch).sigok = true := rfl
@[simp] theorem State.launch_tblValid (s : State) : (s.launch).tblValid = s.tblValid := rfl
@[simp] theorem State.launch_resValid (s : State) : (s.launch).resValid = false := rfl
@[simp] theorem State.launch_resKind (s : State) : (s.launch).resKind = s.resKind := rfl
@[simp] theorem State.launch_resField (s : State) : (s.launch).resField = s.resField := rfl
@[simp] theorem State.launch_tbl (s : State) : (s.launch).tbl = s.tbl := rfl
@[simp] theorem State.launch_evt (s : State) : (s.launch).evt = [] := rfl
@[simp] theorem State.launch_written (s : State) : (s.launch).written = s.written := rfl
@[simp] theorem State.launch_params (s : State) : (s.launch).params = s.params := rfl
@[simp] theorem State.launch_src (s : State) : (s.launch).src = s.src := rfl
@[simp] theorem State.launch_inputs (s : State) : (s.launch).inputs = s.inputs := rfl

@[simp] theorem State.applyReset_crc (s : State) : (s.applyReset).crc = State.reset.crc := rfl
@[simp] theorem State.applyReset_len (s : State) : (s.applyReset).len = State.reset.len := rfl
@[simp] theorem State.applyReset_typ (s : State) : (s.applyReset).typ = State.reset.typ := rfl
@[simp] theorem State.applyReset_scrc (s : State) : (s.applyReset).scrc = State.reset.scrc := rfl
@[simp] theorem State.applyReset_ccrc (s : State) : (s.applyReset).ccrc = State.reset.ccrc := rfl
@[simp] theorem State.applyReset_cnt (s : State) : (s.applyReset).cnt = State.reset.cnt := rfl
@[simp] theorem State.applyReset_idx (s : State) : (s.applyReset).idx = State.reset.idx := rfl
@[simp] theorem State.applyReset_tdat (s : State) : (s.applyReset).tdat = State.reset.tdat := rfl
@[simp] theorem State.applyReset_pos (s : State) : (s.applyReset).pos = State.reset.pos := rfl
@[simp] theorem State.applyReset_ph (s : State) : (s.applyReset).ph = State.reset.ph := rfl
@[simp] theorem State.applyReset_k (s : State) : (s.applyReset).k = State.reset.k := rfl
@[simp] theorem State.applyReset_sigok (s : State) : (s.applyReset).sigok = State.reset.sigok := rfl
@[simp] theorem State.applyReset_tblValid (s : State) : (s.applyReset).tblValid = State.reset.tblValid := rfl
@[simp] theorem State.applyReset_resValid (s : State) : (s.applyReset).resValid = State.reset.resValid := rfl
@[simp] theorem State.applyReset_resKind (s : State) : (s.applyReset).resKind = State.reset.resKind := rfl
@[simp] theorem State.applyReset_resField (s : State) : (s.applyReset).resField = State.reset.resField := rfl
@[simp] theorem State.applyReset_tbl (s : State) : (s.applyReset).tbl = State.reset.tbl := rfl
@[simp] theorem State.applyReset_evt (s : State) : (s.applyReset).evt = State.reset.evt := rfl
@[simp] theorem State.applyReset_written (s : State) : (s.applyReset).written = State.reset.written := rfl
@[simp] theorem State.applyReset_params (s : State) : (s.applyReset).params = s.params := rfl
@[simp] theorem State.applyReset_src (s : State) : (s.applyReset).src = s.src := rfl
@[simp] theorem State.applyReset_inputs (s : State) : (s.applyReset).inputs = s.inputs := rfl

end Sys2Proof.Machine
end

