-- ==== Sys2Proof/Laws/Ops.lean ====
section
/-! SUPPORT. What each shared operation can do, said once: the acceptance guards, the byte source, the step rules of a run, and
feeding the bytes of a record. -/

namespace Sys2Proof.Machine

/-! ## Guards -/

@[simp] theorem State.busy_eq_true_iff (s : State) : s.busy = true ↔ s.ph ≠ .idle := by simp [State.busy]

@[simp] theorem State.busy_eq_false_iff (s : State) : s.busy = false ↔ s.ph = .idle := by simp [State.busy]

theorem whenIdle_of_idle {s : State} (a : Answer) (h : s.ph = .idle) : whenIdle s a = a := by
  simp [whenIdle, h]

theorem whenIdle_of_busy {s : State} (a : Answer) (h : s.ph ≠ .idle) : whenIdle s a = .refused .busy := by
  simp [whenIdle, h]

theorem whenTable_of_valid {s : State} (a : Answer) (h : s.tblValid = true) : whenTable s a = a := by
  simp [whenTable, h]

theorem whenTable_of_invalid {s : State} (a : Answer) (h : s.tblValid = false) :
    whenTable s a = .refused .tableNotBuilt := by
  simp [whenTable, h]

theorem whenCrcWritten_of_written {s : State} (a : Answer) (h : s.written.crc = true) : whenCrcWritten s a = a := by
  simp [whenCrcWritten, h]

theorem whenCrcWritten_of_unwritten {s : State} (a : Answer) (h : s.written.crc = false) :
    whenCrcWritten s a = .refused .crcUnwritten := by
  simp [whenCrcWritten, h]

/-- A guarded command that answers a next state was accepted. -/
theorem whenIdle_next {s t : State} {a : Answer} (h : whenIdle s a = .next t) : s.ph = .idle ∧ a = .next t := by
  by_cases hp : s.ph = .idle
  · exact ⟨hp, by rwa [whenIdle_of_idle a hp] at h⟩
  · rw [whenIdle_of_busy a hp] at h; cases h

theorem whenTable_next {s t : State} {a : Answer} (h : whenTable s a = .next t) : s.tblValid = true ∧ a = .next t := by
  cases hv : s.tblValid with
  | true => exact ⟨rfl, by rwa [whenTable_of_valid a hv] at h⟩
  | false => rw [whenTable_of_invalid a hv] at h; cases h

theorem whenCrcWritten_next {s t : State} {a : Answer} (h : whenCrcWritten s a = .next t) :
    s.written.crc = true ∧ a = .next t := by
  cases hv : s.written.crc with
  | true => exact ⟨rfl, by rwa [whenCrcWritten_of_written a hv] at h⟩
  | false => rw [whenCrcWritten_of_unwritten a hv] at h; cases h

/-! ## The byte source and one event of a run -/

theorem srcNext_of_nil {s : State} (h : s.src = []) : srcNext s = (.eos, s) := by simp [srcNext, h]

theorem srcNext_of_cons {s : State} {b : Byte} {rest : List Byte} (h : s.src = b :: rest) :
    srcNext s = (.byte b, (s.setSrc rest).advance) := by simp [srcNext, h]

theorem streamEvent_of_nil {s : State} (h : s.src = []) : streamEvent s = .next (onEos s) := by
  simp [streamEvent, srcNext_of_nil h]

/-- Taking a byte from the source is feeding it to the state whose source has moved on. -/
theorem streamEvent_of_cons {s : State} {b : Byte} {rest : List Byte} (h : s.src = b :: rest) :
    streamEvent s = feedByte b (s.setSrc rest) := by
  simp [streamEvent, srcNext_of_cons h, feedByte]

/-! ## The step rules, one equation per case -/

theorem k_lt_three_iff (k : BitVec 3) : k < 3#3 ↔ k.toNat < 3 := by simp [BitVec.lt_def]

theorem k_lt_seven_iff (k : BitVec 3) : k < 7#3 ↔ k.toNat < 7 := by simp [BitVec.lt_def]

theorem sigByte_early {b : Byte} {s : State} (h : s.k < 7#3) : sigByte b s = (s.setSigok (s.sigokAfter b)).nextByte :=
  if_pos h

theorem sigByte_verified {b : Byte} {s : State} (h : ¬ s.k < 7#3) (ho : s.sigokAfter b = true) :
    sigByte b s = (s.setSigok (s.sigokAfter b)).enter .len := (if_neg h).trans (if_pos ho)

theorem sigByte_differs {b : Byte} {s : State} (h : ¬ s.k < 7#3) (ho : s.sigokAfter b = false) :
    sigByte b s = (s.setSigok (s.sigokAfter b)).terminate .notThisFormat .none :=
  (if_neg h).trans (if_neg (by simp [ho]))

theorem lenByte_early {b : Byte} {s : State} (h : s.k < 3#3) :
    lenByte b s = (s.setLen (shiftin s.k s.len b)).nextByte := if_pos h

theorem lenByte_last {b : Byte} {s : State} (h : ¬ s.k < 3#3) :
    lenByte b s = ((s.setLen (shiftin s.k s.len b)).setCrc Config.init).enter .typ := if_neg h

theorem typByte_early {b : Byte} {s : State} (h : s.k < 3#3) :
    typByte b s = ((s.setTyp (shiftin s.k s.typ b)).foldByte b).nextByte := if_pos h

theorem typByte_last_empty {b : Byte} {s : State} (h : ¬ s.k < 3#3) (hl : s.len = 0#32) :
    typByte b s = ((s.setTyp (shiftin s.k s.typ b)).foldByte b).enter .scr := (if_neg h).trans (if_pos hl)

theorem typByte_last_payload {b : Byte} {s : State} (h : ¬ s.k < 3#3) (hl : s.len ≠ 0#32) :
    typByte b s = (((s.setTyp (shiftin s.k s.typ b)).foldByte b).setCnt s.len).enter .dat :=
  (if_neg h).trans (if_neg hl)

theorem datByte_last {b : Byte} {s : State} (h : s.cnt - 1#32 = 0#32) :
    datByte b s = ((s.foldByte b).setCnt (s.cnt - 1#32)).setPh .scr := if_pos h

theorem datByte_more {b : Byte} {s : State} (h : s.cnt - 1#32 ≠ 0#32) :
    datByte b s = (s.foldByte b).setCnt (s.cnt - 1#32) := if_neg h

theorem scrByte_early {b : Byte} {s : State} (h : s.k < 3#3) :
    scrByte b s = .next (s.setScrc (shiftin s.k s.scrc b)).nextByte := if_pos h

theorem scrByte_last {b : Byte} {s : State} (h : ¬ s.k < 3#3) :
    scrByte b s = finishChunk (shiftin s.k s.scrc b) (s.setScrc (shiftin s.k s.scrc b)) := if_neg h

/-- The end of a chunk has three next states and one refusal (R144). -/
theorem finishChunk_cases (stored : Word) (s : State) :
    let computed := s.crc ^^^ Config.xorOut
    let s' := (s.setCcrc computed).emit
      { index := s.idx, typ := s.typ, length := s.len, stored := stored, computed := computed }
    (computed ≠ stored ∧ finishChunk stored s = .next (s'.terminate .mismatch .none)) ∨
    (computed = stored ∧ s.typ = s.params.terminator ∧ finishChunk stored s = .next (s'.terminate .allValid .none)) ∨
    (computed = stored ∧ s.typ ≠ s.params.terminator ∧ holdsIndex s.params (s.idx + 1) = true ∧
      finishChunk stored s = .next ((s'.setIdx (s.idx + 1)).enter .len)) ∨
    (computed = stored ∧ s.typ ≠ s.params.terminator ∧ holdsIndex s.params (s.idx + 1) = false ∧
      finishChunk stored s = .refused .indexOverflow) := by
  intro computed s'
  by_cases hc : s.crc ^^^ Config.xorOut = stored
  · by_cases ht : s.typ = s.params.terminator
    · exact .inr (.inl ⟨hc, ht, by simp [finishChunk, hc, ht, s', computed]⟩)
    · cases hi : holdsIndex s.params (s.idx + 1) with
      | true => exact .inr (.inr (.inl ⟨hc, ht, rfl, by simp [finishChunk, hc, ht, hi, s', computed]⟩))
      | false => exact .inr (.inr (.inr ⟨hc, ht, rfl, by simp [finishChunk, hc, ht, hi]⟩))
  · exact .inl ⟨hc, by simp [finishChunk, hc, s', computed]⟩

/-- What one byte can do in a run: the phase's rule, a next state everywhere but at the end of a chunk. -/
theorem onByte_cases {b : Byte} {s t : State} (h : onByte b s = .next t) :
    (s.ph = .sig ∧ t = sigByte b s) ∨ (s.ph = .len ∧ t = lenByte b s) ∨ (s.ph = .typ ∧ t = typByte b s) ∨
    (s.ph = .dat ∧ t = datByte b s) ∨
    (s.ph = .scr ∧ s.k < 3#3 ∧ t = (s.setScrc (shiftin s.k s.scrc b)).nextByte) ∨
    (s.ph = .scr ∧ ¬ s.k < 3#3 ∧
      finishChunk (shiftin s.k s.scrc b) (s.setScrc (shiftin s.k s.scrc b)) = .next t) := by
  unfold onByte at h
  split at h
  case h_1 => cases h
  case h_2 hp => cases h; exact .inl ⟨hp, rfl⟩
  case h_3 hp => cases h; exact .inr (.inl ⟨hp, rfl⟩)
  case h_4 hp => cases h; exact .inr (.inr (.inl ⟨hp, rfl⟩))
  case h_5 hp => cases h; exact .inr (.inr (.inr (.inl ⟨hp, rfl⟩)))
  case h_6 hp =>
    unfold scrByte at h
    by_cases hk : s.k < 3#3
    · rw [if_pos hk] at h; cases h; exact .inr (.inr (.inr (.inr (.inl ⟨hp, hk, rfl⟩))))
    · rw [if_neg hk] at h; exact .inr (.inr (.inr (.inr (.inr ⟨hp, hk, h⟩))))

/-- A byte never faults, and is refused only outside a run or where IDX would overflow. -/
theorem onByte_not_fault (b : Byte) (s : State) (f : Fault) : onByte b s ≠ .fault f := nomatch f

/-! ## What no byte of a run changes -/

/-- The fields that no byte of a run writes. -/
structure SameAround (s t : State) : Prop where
  tbl : t.tbl = s.tbl
  tblValid : t.tblValid = s.tblValid
  tdat : t.tdat = s.tdat
  params : t.params = s.params
  src : t.src = s.src
  inputs : t.inputs = s.inputs

theorem SameAround.refl (s : State) : SameAround s s := ⟨rfl, rfl, rfl, rfl, rfl, rfl⟩

theorem SameAround.trans {s t u : State} (h : SameAround s t) (h' : SameAround t u) : SameAround s u :=
  ⟨h'.tbl.trans h.tbl, h'.tblValid.trans h.tblValid, h'.tdat.trans h.tdat, h'.params.trans h.params, h'.src.trans h.src,
    h'.inputs.trans h.inputs⟩

theorem sigByte_around (b : Byte) (s : State) : SameAround s (sigByte b s) := by
  by_cases hk : s.k < 7#3
  · rw [sigByte_early hk]; exact ⟨rfl, rfl, rfl, rfl, rfl, rfl⟩
  · cases ho : s.sigokAfter b
    · rw [sigByte_differs hk ho]; exact ⟨rfl, rfl, rfl, rfl, rfl, rfl⟩
    · rw [sigByte_verified hk ho]; exact ⟨rfl, rfl, rfl, rfl, rfl, rfl⟩

theorem lenByte_around (b : Byte) (s : State) : SameAround s (lenByte b s) := by
  by_cases hk : s.k < 3#3
  · rw [lenByte_early hk]; exact ⟨rfl, rfl, rfl, rfl, rfl, rfl⟩
  · rw [lenByte_last hk]; exact ⟨rfl, rfl, rfl, rfl, rfl, rfl⟩

theorem typByte_around (b : Byte) (s : State) : SameAround s (typByte b s) := by
  by_cases hk : s.k < 3#3
  · rw [typByte_early hk]; exact ⟨rfl, rfl, rfl, rfl, rfl, rfl⟩
  · by_cases hl : s.len = 0#32
    · rw [typByte_last_empty hk hl]; exact ⟨rfl, rfl, rfl, rfl, rfl, rfl⟩
    · rw [typByte_last_payload hk hl]; exact ⟨rfl, rfl, rfl, rfl, rfl, rfl⟩

theorem datByte_around (b : Byte) (s : State) : SameAround s (datByte b s) := by
  by_cases hc : s.cnt - 1#32 = 0#32
  · rw [datByte_last hc]; exact ⟨rfl, rfl, rfl, rfl, rfl, rfl⟩
  · rw [datByte_more hc]; exact ⟨rfl, rfl, rfl, rfl, rfl, rfl⟩

theorem finishChunk_around {stored : Word} {s t : State} (h : finishChunk stored s = .next t) : SameAround s t := by
  rcases finishChunk_cases stored s with ⟨_, h'⟩ | ⟨_, _, h'⟩ | ⟨_, _, _, h'⟩ | ⟨_, _, _, h'⟩ <;> rw [h'] at h <;> cases h <;>
    exact ⟨rfl, rfl, rfl, rfl, rfl, rfl⟩

theorem onByte_around {b : Byte} {s t : State} (h : onByte b s = .next t) : SameAround s t := by
  rcases onByte_cases h with ⟨_, rfl⟩ | ⟨_, rfl⟩ | ⟨_, rfl⟩ | ⟨_, rfl⟩ | ⟨_, _, rfl⟩ | ⟨_, _, h⟩
  · exact sigByte_around b s
  · exact lenByte_around b s
  · exact typByte_around b s
  · exact datByte_around b s
  · exact ⟨rfl, rfl, rfl, rfl, rfl, rfl⟩
  · have around : SameAround s (s.setScrc (shiftin s.k s.scrc b)) := ⟨rfl, rfl, rfl, rfl, rfl, rfl⟩
    exact around.trans (finishChunk_around h)

theorem feedByte_around {b : Byte} {s t : State} (h : feedByte b s = .next t) : SameAround s t :=
  have around : SameAround s s.advance := ⟨rfl, rfl, rfl, rfl, rfl, rfl⟩
  around.trans (onByte_around h)

/-! ## Feeding the bytes of a record -/

@[simp] theorem feed_nil (s : State) : feed [] s = .next s := rfl

theorem feed_cons_of_next {b : Byte} {bs : List Byte} {s t : State} (h : feedByte b s = .next t) :
    feed (b :: bs) s = feed bs t := by simp [feed, h]

theorem feed_cons_of_refused {b : Byte} {bs : List Byte} {s : State} {r : Refusal} (h : feedByte b s = .refused r) :
    feed (b :: bs) s = .refused r := by simp [feed, h]

theorem feed_append_of_next {xs ys : List Byte} {s t : State} (h : feed xs s = .next t) :
    feed (xs ++ ys) s = feed ys t := by
  induction xs generalizing s with
  | nil => simp only [feed_nil] at h; cases h; rfl
  | cons b xs ih =>
    cases hb : feedByte b s with
    | next s' => rw [feed_cons_of_next hb] at h; rw [List.cons_append, feed_cons_of_next hb, ih h]
    | fault r => cases r
    | refused r => rw [feed_cons_of_refused hb] at h; cases h

/-- The bytes of a record change none of the fields around the run. -/
theorem feed_around {bs : List Byte} {s t : State} (h : feed bs s = .next t) : SameAround s t := by
  induction bs generalizing s with
  | nil => cases h; exact .refl _
  | cons b bs ih =>
    cases hb : feedByte b s with
    | next u => rw [feed_cons_of_next hb] at h; exact (feedByte_around hb).trans (ih h)
    | fault r => cases r
    | refused r => rw [feed_cons_of_refused hb] at h; cases h

@[simp] theorem State.atRecord_iff (s : State) (ph : Phase) : s.atRecord ph = true ↔ s.ph = ph ∧ s.k = 0#3 := by
  simp [State.atRecord]

end Sys2Proof.Machine
end

