-- ==== Sys2Proof/Laws/PerInstr.lean ====
section
/-! SUPPORT. The family MatchesRow, one lemma per constructor: the encoding of a well-formed instruction is one of the words or
records of its row of spec/opcode_table.json. -/

namespace Sys2Proof.Laws.MatchesRow

/-- A command row: the word under the mask 0x700 is the row's match (spec/30_encoding.md R62). -/
def commandRow (value : BitVec 11) : Encoded → Prop
  | .command w => w &&& 0x700#11 = value
  | .record _ => False

/-- A chunk row: 12 + length bytes, the length field first and then the type field (R66, R68), whose word satisfies `tag`
(R69). -/
def chunkRow (length : Word) (tag : Word → Prop) : Encoded → Prop
  | .command _ => False
  | .record bs =>
    bs.length = 12 + length.toNat ∧ be32Of (bs.take 4) = length ∧ tag (be32Of ((bs.drop 4).take 4))

/-- The row of each instruction. -/
def row (p : Params) : Instr → Encoded → Prop
  | .build => commandRow 0x000#11
  | .tblrd _ => commandRow 0x100#11
  | .crcinit => commandRow 0x200#11
  | .crcbyte _ => commandRow 0x300#11
  | .crcfin => commandRow 0x400#11
  | .validate => commandRow 0x500#11
  | .reserved6 => commandRow 0x600#11
  | .reserved7 => commandRow 0x700#11
  | .sig => fun e =>
    e = .record [0x89#8, 0x50#8, 0x4E#8, 0x47#8, 0x0D#8, 0x0A#8, 0x1A#8, 0x0A#8]
  | .chunk length _ _ _ => chunkRow length (· ≠ p.terminator)
  | .chunkTerm length _ _ => chunkRow length (· = p.terminator)

/-- The encoding of the instruction, if it is well formed, is of its row. -/
def Statement (i : Instr) : Prop := ∀ p : Params, i.wf p = true → row p i (encode p i)

/-- A command word of opcode `op` has it in bits 10:8, whatever its `arg`. -/
theorem cmdWord_under_mask (op : BitVec 3) (arg : Byte) : cmdWord op arg &&& 0x700#11 = cmdWord op 0 := by
  revert op arg; decide +kernel

theorem build : Statement .build := fun _ _ => cmdWord_under_mask 0 0

theorem tblrd (i : Byte) : Statement (.tblrd i) := fun _ _ => cmdWord_under_mask 1 i

theorem crcinit : Statement .crcinit := fun _ _ => cmdWord_under_mask 2 0

theorem crcbyte (b : Byte) : Statement (.crcbyte b) := fun _ _ => cmdWord_under_mask 3 b

theorem crcfin : Statement .crcfin := fun _ _ => cmdWord_under_mask 4 0

theorem validate : Statement .validate := fun _ _ => cmdWord_under_mask 5 0

theorem reserved6 : Statement .reserved6 := fun _ _ => cmdWord_under_mask 6 0

theorem reserved7 : Statement .reserved7 := fun _ _ => cmdWord_under_mask 7 0

theorem sig : Statement .sig := fun _ _ => rfl

/-- The three parts of a chunk record that its row names. -/
theorem chunkBytes_row {length typ : Word} {data : List Byte} (stored : Word) (hd : data.length = length.toNat) :
    (chunkBytes length typ data stored).length = 12 + length.toNat ∧
      be32Of ((chunkBytes length typ data stored).take 4) = length ∧
      be32Of (((chunkBytes length typ data stored).drop 4).take 4) = typ :=
  ⟨by simp [chunkBytes, hd]; omega, be32Of_be32Bytes length, be32Of_be32Bytes typ⟩

theorem chunk (length typ : Word) (data : List Byte) (stored : Word) : Statement (.chunk length typ data stored) := by
  intro p h
  simp only [Instr.wf, lengthAgrees, Bool.and_eq_true, beq_iff_eq, bne_iff_ne] at h
  obtain ⟨hl, hb, ht⟩ := chunkBytes_row (typ := typ) stored h.1
  exact ⟨hl, hb, fun he => h.2 (ht.symm.trans he)⟩

theorem chunkTerm (length : Word) (data : List Byte) (stored : Word) : Statement (.chunkTerm length data stored) := by
  intro p h
  simp only [Instr.wf, lengthAgrees, beq_iff_eq] at h
  exact chunkBytes_row stored h

end Sys2Proof.Laws.MatchesRow
end

