-- ==== Sys2Proof/Laws/Records.lean ====
section
/-! SUPPORT. What a run does with each field of a chunk record, the field's bytes taken as one: the pieces that the meanings of
CHUNK and CHUNK.TERM are made of. -/

namespace Sys2Proof.Machine

/-- Four shift-in steps of the bytes of `w`, whatever the register held (R67). -/
theorem shiftin_bytes (w r : Word) :
    shiftin 3#3 (shiftin 2#3 (shiftin 1#3 (shiftin 0#3 r (w.extractLsb' 24 8)) (w.extractLsb' 16 8)) (w.extractLsb' 8 8))
      (w.extractLsb' 0 8) = w := by
  refine Eq.trans ?_ (be32_of_bytes w)
  simp [shiftin, be32, BitVec.shiftLeft_or_distrib]

/-- The length field (R141). -/
theorem feed_length {s : State} (w : Word) (hp : s.ph = .len) (hk : s.k = 0#3) :
    feed (be32Bytes w) s =
      .next { s with len := w, crc := Config.init, pos := s.pos + 4, k := 0#3, ph := .typ
                     written := { s.written with len := true, crc := true } } := by
  cases s
  subst hp hk
  simp [be32Bytes, feed, feedByte, onByte, lenByte, State.advance, State.setLen, State.nextByte, State.setCrc, State.enter,
    shiftin_bytes]

/-- The type field (R142): the payload phase follows only if there is a payload. -/
theorem feed_type {s : State} (w : Word) (hp : s.ph = .typ) (hk : s.k = 0#3) :
    feed (be32Bytes w) s =
      .next { s with typ := w, crc := (be32Bytes w).foldl (upd s.tbl) s.crc, pos := s.pos + 4, k := 0#3
                     ph := if s.len = 0#32 then .scr else .dat
                     cnt := if s.len = 0#32 then s.cnt else s.len
                     written := { s.written with typ := true, crc := true, cnt := s.written.cnt || s.len != 0#32 } } := by
  cases s
  subst hp hk
  rename_i len _ _ _ _ _ _ _ _ _ _ _ _ _ _ _ _ _ _
  by_cases hl : len = 0#32 <;>
  simp [be32Bytes, feed, feedByte, onByte, typByte, State.advance, State.setTyp, State.nextByte, State.foldByte,
    State.setCrc, State.enter, State.setCnt, shiftin_bytes, hl]

/-- The payload (R143), one step a byte. -/
theorem feed_data (data : List Byte) (hd : data ≠ []) {s : State} (hp : s.ph = .dat) (hc : data.length = s.cnt.toNat) :
    feed data s =
      .next { s with crc := data.foldl (upd s.tbl) s.crc, cnt := 0#32, pos := s.pos + data.length, ph := .scr
                     written := { s.written with crc := true, cnt := true } } := by
  induction data generalizing s with
  | nil => exact absurd rfl hd
  | cons b bs ih =>
    have hb : feedByte b s = .next (datByte b s.advance) := by simp [feedByte, onByte, hp]
    have hn : (s.cnt - 1#32).toNat = bs.length := by
      rw [List.length_cons] at hc
      have := s.cnt.isLt
      bv_omega
    rw [feed_cons_of_next hb]
    by_cases he : bs = []
    · subst he
      have h0 : s.cnt - 1#32 = 0#32 := BitVec.eq_of_toNat_eq (by simpa using hn)
      rw [datByte_last (by simpa using h0)]
      simp [State.foldByte, State.advance, State.setCrc, State.setCnt, State.setPh, h0]
    · have h0 : s.cnt - 1#32 ≠ 0#32 := fun h => he (List.eq_nil_of_length_eq_zero (by rw [← hn, h]; rfl))
      rw [datByte_more (by simpa using h0), ih he (by simpa using hp) (by simpa using hn.symm)]
      simp [State.foldByte, State.advance, State.setCrc, State.setCnt]
      omega

/-- The stored-CRC field (R144): its fourth byte finishes the chunk. -/
theorem feed_stored {s : State} (w : Word) (hp : s.ph = .scr) (hk : s.k = 0#3) :
    feed (be32Bytes w) s =
      finishChunk w { s with scrc := w, pos := s.pos + 4, k := 3#3, written := { s.written with scrc := true } } := by
  cases s
  subst hp hk
  simp [be32Bytes, feed, feedByte, onByte, scrByte, State.advance, State.setScrc, State.nextByte, shiftin_bytes]
  split <;> simp_all

/-- A whole chunk record: everything up to the comparison, then the end of the chunk. -/
theorem feed_chunkBytes {s : State} (length typ : Word) (data : List Byte) (stored : Word) (hp : s.ph = .len) (hk : s.k = 0#3)
    (hd : data.length = length.toNat) :
    feed (chunkBytes length typ data stored) s =
      finishChunk stored
        { s with len := length, typ := typ, crc := (be32Bytes typ ++ data).foldl (upd s.tbl) Config.init, scrc := stored
                 cnt := if length = 0#32 then s.cnt else 0#32, pos := s.pos + 12 + length.toNat, k := 3#3, ph := .scr
                 written := { s.written with len := true, typ := true, crc := true, scrc := true
                                             cnt := s.written.cnt || length != 0#32 } } := by
  unfold chunkBytes
  rw [List.append_assoc, List.append_assoc, feed_append_of_next (feed_length length hp hk),
    feed_append_of_next (feed_type typ rfl rfl)]
  by_cases hl : length = 0#32
  · subst hl
    obtain rfl : data = [] := List.eq_nil_of_length_eq_zero (by simpa using hd)
    rw [List.nil_append, feed_stored stored (by simp) rfl]
    simp [Nat.add_assoc]
  · have he : data ≠ [] := by
      rintro rfl
      exact hl (BitVec.eq_of_toNat_eq (by simpa using hd.symm))
    rw [feed_append_of_next (feed_data data he (by simp [hl]) (by simp [hl, hd])), feed_stored stored rfl rfl]
    have hb : (length != 0#32) = true := by simpa using hl
    have hn : s.pos + 4 + 4 + data.length + 4 = s.pos + 12 + data.length := by omega
    simp [hl, hb, hn, List.foldl_append, ← hd]

end Sys2Proof.Machine
end

