-- ==== Sys2Proof/Laws/Step.lean ====
section
/-! SUPPORT. What a step can do, said once. -/

namespace Sys2Proof.Machine

theorem blockMoves_of_busy {s : State} (h : s.ph ≠ .idle) : blockMoves s = streamEvent s := by simp [blockMoves, h]

theorem blockMoves_of_idle {s : State} (h : s.ph = .idle) : blockMoves s = .next s := by simp [blockMoves, h]

/-- Every step that answers a next state is one of these: the block waits, an event of a run, an accepted command, reset, a
source connected to an idle block, a host that stops waiting. -/
theorem step_cases {s t : State} (h : step s = .next t) :
    (s.ph = .idle ∧ t = s ∧ s.inputs = []) ∨
    (s.ph ≠ .idle ∧ streamEvent s = .next t ∧ ∀ rest, s.inputs ≠ .reset :: rest) ∨
    (∃ rest, s.inputs = .pause :: rest ∧ s.ph = .idle ∧ t = s.setInputs rest) ∨
    (∃ rest, s.inputs = .pause :: rest ∧ s.ph ≠ .idle ∧ streamEvent (s.setInputs rest) = .next t) ∨
    (∃ w rest, s.inputs = .command w :: rest ∧ s.ph = .idle ∧ exec (decodeCommand w) (s.setInputs rest) = .next t) ∨
    (∃ rest, s.inputs = .reset :: rest ∧ t = (s.setInputs rest).applyReset) ∨
    (∃ bytes rest, s.inputs = .connect bytes :: rest ∧ s.ph = .idle ∧ t = (s.setInputs rest).setSrc bytes) ∨
    (∃ rest, s.inputs = .awaitIdle :: rest ∧ s.ph = .idle ∧ t = s.setInputs rest) := by
  unfold step at h
  split at h
  case h_1 hi =>
    by_cases hp : s.ph = .idle
    · rw [blockMoves_of_idle hp] at h; cases h; exact .inl ⟨hp, rfl, hi⟩
    · rw [blockMoves_of_busy hp] at h; exact .inr (.inl ⟨hp, h, by simp [hi]⟩)
  case h_2 w rest hi =>
    by_cases hp : s.ph = .idle
    · rw [if_neg (by simp [hp])] at h; exact .inr (.inr (.inr (.inr (.inl ⟨w, rest, hi, hp, h⟩))))
    · rw [if_pos (by simp [hp]), blockMoves_of_busy hp] at h; exact .inr (.inl ⟨hp, h, by simp [hi]⟩)
  case h_3 bytes rest hi =>
    unfold connectSource at h
    by_cases hp : s.ph = .idle
    · rw [if_neg (by simp [hp])] at h; cases h
      exact .inr (.inr (.inr (.inr (.inr (.inr (.inl ⟨bytes, rest, hi, hp, rfl⟩))))))
    · rw [if_pos (by simp [hp])] at h; cases h
  case h_4 rest hi => cases h; exact .inr (.inr (.inr (.inr (.inr (.inl ⟨rest, hi, rfl⟩)))))
  case h_5 rest hi =>
    by_cases hp : s.ph = .idle
    · rw [blockMoves_of_idle (s := s.setInputs rest) hp] at h; cases h; exact .inr (.inr (.inl ⟨rest, hi, hp, rfl⟩))
    · rw [blockMoves_of_busy (s := s.setInputs rest) hp] at h; exact .inr (.inr (.inr (.inl ⟨rest, hi, hp, h⟩)))
  case h_6 rest hi =>
    unfold awaitIdle at h
    by_cases hp : s.ph = .idle
    · rw [if_neg (by simp [hp])] at h; cases h
      exact .inr (.inr (.inr (.inr (.inr (.inr (.inr ⟨rest, hi, hp, rfl⟩))))))
    · rw [if_pos (by simp [hp]), blockMoves_of_busy hp] at h; exact .inr (.inl ⟨hp, h, by simp [hi]⟩)

/-- What an accepted command word can do: the six commands, each with what its acceptance says. -/
theorem exec_command_cases {w : BitVec 11} {s t : State} (h : exec (decodeCommand w) s = .next t) :
    s.ph = .idle ∧
    ((decodeCommand w = .build ∧ t = s.buildTbl) ∨
     (∃ i, decodeCommand w = .tblrd i ∧ s.tblValid = true ∧ t = s.setTdat (readTbl s.tbl i)) ∨
     (decodeCommand w = .crcinit ∧ t = s.setCrc Config.init) ∨
     (∃ b, decodeCommand w = .crcbyte b ∧ s.tblValid = true ∧ s.written.crc = true ∧ t = s.foldByte b) ∨
     (decodeCommand w = .crcfin ∧ s.written.crc = true ∧ t = s.setCcrc (s.crc ^^^ Config.xorOut)) ∨
     (decodeCommand w = .validate ∧ s.tblValid = true ∧ t = s.launch)) := by
  cases hd : decodeCommand w <;> simp only [hd, exec] at h
  case build => obtain ⟨hp, h⟩ := whenIdle_next h; cases h; exact ⟨hp, .inl ⟨rfl, rfl⟩⟩
  case tblrd i =>
    obtain ⟨hp, h⟩ := whenIdle_next h; obtain ⟨hv, h⟩ := whenTable_next h; cases h
    exact ⟨hp, .inr (.inl ⟨i, rfl, hv, rfl⟩)⟩
  case crcinit => obtain ⟨hp, h⟩ := whenIdle_next h; cases h; exact ⟨hp, .inr (.inr (.inl ⟨rfl, rfl⟩))⟩
  case crcbyte b =>
    obtain ⟨hp, h⟩ := whenIdle_next h; obtain ⟨hv, h⟩ := whenTable_next h; obtain ⟨hw, h⟩ := whenCrcWritten_next h
    cases h; exact ⟨hp, .inr (.inr (.inr (.inl ⟨b, rfl, hv, hw, rfl⟩)))⟩
  case crcfin =>
    obtain ⟨hp, h⟩ := whenIdle_next h; obtain ⟨hw, h⟩ := whenCrcWritten_next h; cases h
    exact ⟨hp, .inr (.inr (.inr (.inr (.inl ⟨rfl, hw, rfl⟩))))⟩
  case validate =>
    obtain ⟨hp, h⟩ := whenIdle_next h; obtain ⟨hv, h⟩ := whenTable_next h; cases h
    exact ⟨hp, .inr (.inr (.inr (.inr (.inr ⟨rfl, hv, rfl⟩))))⟩
  case reserved6 => obtain ⟨_, h⟩ := whenIdle_next h; cases h
  case reserved7 => obtain ⟨_, h⟩ := whenIdle_next h; cases h
  case sig => exact absurd hd (by unfold decodeCommand; split <;> simp)
  case chunk => exact absurd hd (by unfold decodeCommand; split <;> simp)
  case chunkTerm => exact absurd hd (by unfold decodeCommand; split <;> simp)

/-- A command word offered to an idle block is run. -/
theorem step_command {s : State} {w : BitVec 11} {rest : List Input} (hp : s.ph = .idle)
    (hi : s.inputs = .command w :: rest) : step s = exec (decodeCommand w) (s.setInputs rest) := by
  unfold step; rw [hi]; simp [hp]

/-- In a run a step is a stream event, whether or not a command word is offered. -/
theorem step_of_busy {s : State} (hp : s.ph ≠ .idle)
    (hi : s.inputs = [] ∨ ∃ w rest, s.inputs = .command w :: rest) : step s = streamEvent s := by
  unfold step
  rcases hi with hi | ⟨w, rest, hi⟩ <;> simp [hi, blockMoves_of_busy hp, hp]

/-- Several steps, from the first. -/
theorem run_of_next {M : Host.Core} {n : Nat} {s t : M.State} (h : M.step s = .next t) : M.run (n + 1) s = M.run n t := by
  rw [Host.Core.run, h]

/-- Several steps of the block, from the first. -/
theorem run_core_of_next {n : Nat} {s t : State} (h : step s = .next t) :
    Host.Core.run Sys2Proof.core (n + 1) s = Host.Core.run Sys2Proof.core n t :=
  run_of_next (M := Sys2Proof.core) h

end Sys2Proof.Machine
end

