-- ==== Sys2Proof/Tests/Slice0.lean ====
section
/-! SUPPORT. The package's own tests: well-formedness, words and bytes written out from spec/30_encoding.md, one step of each
instruction against the values of spec/95_test_vectors.md, and for every obligation with hypotheses a state and operands that meet
them, clause by clause. -/

namespace Sys2Proof.Tests

open Sys2Proof.Machine

/-! ## States the tests start from -/

/-- After reset and BUILD. -/
def built : State := State.reset.buildTbl

/-- After reset, BUILD and CRCINIT. -/
def ready : State := built.setCrc 0xFFFFFFFF#32

/-- Every register written. -/
def allWritten : Written :=
  { crc := true, len := true, typ := true, scrc := true, ccrc := true, cnt := true, tdat := true
    resKind := true, resField := true }

/-- Somewhere in a run. -/
def inRun (ph : Phase) (k : BitVec 3) (src : List Byte) : State :=
  { ready with ph := ph, k := k, sigok := true, src := src, written := allWritten }

/-- In the signature, `k` bytes read. -/
def sigAt (k : BitVec 3) (ok : Bool) (src : List Byte) : State :=
  { built with ph := .sig, k := k, pos := k.toNat, sigok := ok, src := src }

/-- At the last byte of chunk 0, which has no payload. -/
def chunkEnd (typ crc scrc : Word) (src : List Byte) : State :=
  { built with ph := .scr, k := 3#3, sigok := true, pos := 19, len := 0#32, typ := typ, crc := crc, scrc := scrc
               src := src, written := allWritten }

/-- At the last byte of the chunk "AAAA" of spec/95_test_vectors.md V5 and V6. -/
def aaaaEnd (last : Byte) : State := chunkEnd 0x41414141#32 0x64F2F70E#32 0x009B0D08#32 [last]

/-- At the last byte of the terminator chunk of V5, as if it were chunk 0. -/
def iendEnd (last : Byte) : State := chunkEnd 0x49454E44#32 0x51BD9F7D#32 0x00AE4260#32 [last]

/-- One field of the state an answer gives. -/
def after {α : Type} (a : Answer) (f : State → α) : Option α :=
  match a with
  | .next s => some (f s)
  | .fault _ => none
  | .refused _ => none

/-- The reason of a refusal. -/
def refusal (a : Answer) : Option Refusal :=
  match a with
  | .next _ => none
  | .fault _ => none
  | .refused r => some r

/-! ## Well-formedness: one ill-formed term for each check -/

/-- R66: a chunk whose payload is longer than its length field says. -/
theorem test_wf_refuses_long_chunk : (Instr.chunk 0#32 0x41414141#32 [0x00#8] 0#32).wf {} = false := by decide

/-- R66: a chunk whose payload is shorter than its length field says. -/
theorem test_wf_refuses_short_chunk : (Instr.chunk 2#32 0x41414141#32 [0x00#8] 0#32).wf {} = false := by decide

/-- R69: a generic chunk with the terminator's type. -/
theorem test_wf_refuses_terminator_as_chunk : (Instr.chunk 0#32 0x49454E44#32 [] 0#32).wf {} = false := by decide

/-- R69: the case-variant tag "iend" is a generic chunk. -/
theorem test_wf_accepts_case_variant : (Instr.chunk 0#32 0x69656E64#32 [] 0#32).wf {} = true := by decide

/-- R66: a terminator chunk whose payload disagrees with its length. -/
theorem test_wf_refuses_long_terminator : (Instr.chunkTerm 0#32 [0x55#8] 0#32).wf {} = false := by decide

/-- R135: a terminator chunk with a payload. -/
theorem test_wf_accepts_terminator_payload : (Instr.chunkTerm 1#32 [0x55#8] 0#32).wf {} = true := by decide

/-! ## Decoding, bit by bit from R61, R62, R65, R66 -/

theorem test_decode_build : decodeCommand 0b000_10101011#11 = .build := by decide

theorem test_decode_tblrd : decodeCommand 0b001_10000000#11 = .tblrd 128#8 := by decide

theorem test_decode_crcinit : decodeCommand 0b010_11111111#11 = .crcinit := by decide

theorem test_decode_crcbyte : decodeCommand 0b011_00110001#11 = .crcbyte 49#8 := by decide

theorem test_decode_crcfin : decodeCommand 0b100_00000000#11 = .crcfin := by decide

theorem test_decode_validate : decodeCommand 0b101_00000000#11 = .validate := by decide

theorem test_decode_reserved6 : decodeCommand 0b110_00000000#11 = .reserved6 := by decide

theorem test_decode_reserved7 : decodeCommand 0b111_11111111#11 = .reserved7 := by decide

theorem test_decode_sig :
    decodeSig [0x89#8, 0x50#8, 0x4E#8, 0x47#8, 0x0D#8, 0x0A#8, 0x1A#8, 0x0A#8, 0x77#8] = .record .sig [0x77#8] := by decide

/-- V8 (a): the last byte differs. -/
theorem test_decode_wrong_sig :
    decodeSig [0x89#8, 0x50#8, 0x4E#8, 0x47#8, 0x0D#8, 0x0A#8, 0x1A#8, 0x0B#8] = .rejected .notThisFormat := by decide

theorem test_decode_chunk :
    decodeChunk {} [0x00#8, 0x00#8, 0x00#8, 0x02#8, 0x49#8, 0x44#8, 0x41#8, 0x54#8, 0x78#8, 0x9C#8, 0x62#8, 0xA4#8, 0x91#8,
        0x2B#8, 0x00#8] =
      .record (.chunk 2#32 0x49444154#32 [0x78#8, 0x9C#8] 0x62A4912B#32) [0x00#8] := by decide

theorem test_decode_chunk_term :
    decodeChunk {} [0x00#8, 0x00#8, 0x00#8, 0x01#8, 0x49#8, 0x45#8, 0x4E#8, 0x44#8, 0x55#8, 0xCA#8, 0x1B#8, 0xEA#8, 0x9A#8] =
      .record (.chunkTerm 1#32 [0x55#8] 0xCA1BEA9A#32) [] := by decide

/-- V7: the length field declares 10 bytes, only 3 remain. -/
theorem test_decode_truncated_data :
    decodeChunk {} [0x00#8, 0x00#8, 0x00#8, 0x0A#8, 0x41#8, 0x41#8, 0x41#8, 0x41#8, 0x01#8, 0x02#8, 0x03#8] =
      .rejected (.truncated .data) := by decide

/-- The opcode table's numbering: its command rows by their match, a word too wide for a command, SIG by its 64-bit match. -/
theorem test_table_words :
    decodeTableWord 11 0x180 = some (.tblrd 0x80#8) ∧ decodeTableWord 16 0x800 = none ∧
      decodeTableWord 32 0x49454E44 = some (.chunkTerm 0#32 [] 0#32) ∧
      decodeTableWord 32 0x49454E45 = some (.chunk 0#32 0x49454E45#32 [] 0#32) ∧
      decodeTableWord 64 0x89504E470D0A1A0A = some .sig ∧ decodeTableWord 64 0x89504E470D0A1A0B = none ∧
      decodeTableWord 96 0x00000000_41414141_9B0D08F1 = some (.chunk 0#32 0x41414141#32 [] 0x9B0D08F1#32) ∧
      decodeTableWord 96 0x00000000_49454E44_AE426082 = some (.chunkTerm 0#32 [] 0xAE426082#32) := by decide +kernel

/-- R75: the words of the notation. -/
theorem test_encode_words :
    encode {} (.tblrd 0x80#8) = .command 0x180#11 ∧ encode {} (.crcbyte 0x31#8) = .command 0x331#11 ∧
      encode {} .validate = .command 0x500#11 := by decide

/-! ## A placed instruction is what the next step runs -/

theorem test_fetch_command : step (State.reset.withFetchWord 11 0x200) = exec .crcinit State.reset := rfl

theorem test_fetch_record :
    step (State.reset.withFetchWord 64 0x89504E470D0A1A0A) =
      streamEvent (State.reset.withFetchWord 64 0x89504E470D0A1A0A) := rfl

/-- R204: in a run the offered command waits, and the stream byte is taken. -/
theorem test_command_waits :
    after (step (((sigAt 0#3 true [0x89#8])).setInputs [.command 0x000#11])) (fun s => (s.pos, s.inputs)) =
      some (1, [.command 0x000#11]) := by decide

/-! ## One instruction each (spec/95_test_vectors.md) -/

/-- R105's example. -/
theorem test_build :
    after (exec .build State.reset)
        (fun s => (readTbl s.tbl 1#8, readTbl s.tbl 128#8, readTbl s.tbl 255#8, s.tblValid)) =
      some (0x77073096#32, 0xEDB88320#32, 0x2D02EF8D#32, true) := by decide +kernel

/-- Table of section 3.2, first row; and V1. -/
theorem test_tblrd :
    refusal (exec (.tblrd 0#8) State.reset) = some .tableNotBuilt ∧
      after (exec (.tblrd 1#8) built) State.tdat = some 0x77073096#32 := by decide +kernel

theorem test_crcinit :
    after (exec .crcinit State.reset) (fun s => (s.crc, s.tblValid)) = some (0xFFFFFFFF#32, false) := by decide

/-- V3, the first byte; and section 3.2: refused while CRC is unwritten. -/
theorem test_crcbyte :
    after (exec (.crcbyte 0x31#8) ready) State.crc = some 0x7C231048#32 ∧
      refusal (exec (.crcbyte 0x31#8) built) = some .crcUnwritten := by decide +kernel

/-- V3, the last line; and section 3.2: no table is needed. -/
theorem test_crcfin :
    after (exec .crcfin (built.setCrc 0x340BC6D9#32)) (fun s => (s.ccrc, s.crc)) = some (0xCBF43926#32, 0x340BC6D9#32) ∧
      after (exec .crcfin (State.reset.setCrc 0xFFFFFFFF#32)) State.ccrc = some 0#32 := by decide

theorem test_validate :
    after (exec .validate built) (fun s => (s.ph, s.k, s.pos, s.idx, s.sigok, s.resValid)) =
        some (.sig, 0#3, 0, 0, true, false) ∧
      refusal (exec .validate State.reset) = some .tableNotBuilt := by decide

/-- Section 3.2: words 600 and 7FF. -/
theorem test_reserved :
    refusal (exec (decodeCommand 0x600#11) built) = some .reservedOpcode ∧
      refusal (exec (decodeCommand 0x7FF#11) built) = some .reservedOpcode := by decide

/-- V5, offsets 0 to 7. -/
theorem test_sig :
    after (exec .sig (sigAt 0#3 true [])) (fun s => (s.ph, s.k, s.pos, s.sigok)) = some (.len, 0#3, 8, true) := by decide

/-- V8 (c): the first byte is wrong, and all 8 are consumed. -/
theorem test_wrong_sig :
    after (feed [0x00#8, 0x50#8, 0x4E#8, 0x47#8, 0x0D#8, 0x0A#8, 0x1A#8, 0x0A#8] (sigAt 0#3 true []))
        (fun s => (s.ph, s.resKind, s.pos, s.sigok)) = some (.idle, .notThisFormat, 8, false) := by decide

/-- V5, chunk 0: "AAAA" with no payload. -/
theorem test_chunk :
    after (exec (.chunk 0#32 0x41414141#32 [] 0x9B0D08F1#32) (inRun .len 0#3 []))
        (fun s => (s.ph, s.idx, s.ccrc, s.crc)) = some (.len, 1, 0x9B0D08F1#32, 0x64F2F70E#32) := by decide +kernel

/-- V6 (a): bit 0 of the stored CRC flipped. -/
theorem test_chunk_mismatch :
    after (exec (.chunk 0#32 0x41414141#32 [] 0x9B0D08F0#32) (inRun .len 0#3 []))
        (fun s => (s.ph, s.result, s.idx)) =
      some (.idle, some (.mismatch 0x41414141#32 0x9B0D08F0#32 0x9B0D08F1#32), 0) := by decide +kernel

/-- Section 3.1: the terminator type with one payload byte 55. -/
theorem test_chunk_term :
    after (exec (.chunkTerm 1#32 [0x55#8] 0xCA1BEA9A#32) (inRun .len 0#3 []))
        (fun s => (s.ph, s.result, s.ccrc)) = some (.idle, some .allValid, 0xCA1BEA9A#32) := by decide +kernel

/-- R135: a terminator chunk with a wrong checksum is a Mismatch. -/
theorem test_chunk_term_mismatch :
    after (exec (.chunkTerm 0#32 [] 0xAE426083#32) (inRun .len 0#3 []))
        (fun s => (s.ph, s.result)) =
      some (.idle, some (.mismatch 0x49454E44#32 0xAE426083#32 0xAE426082#32)) := by decide +kernel

/-- V7, the last event: end of stream in the payload. -/
theorem test_eos_in_payload :
    after (streamEvent { inRun .dat 0#3 [] with pos := 19, cnt := 7#32, len := 10#32 })
        (fun s => (s.result, s.pos, s.resField.code)) = some (some (.truncated 0 .data), 19, 4#3) := by decide

/-- R76 and V5: the 32 bytes of the minimal file. -/
theorem test_minimal_file :
    streamOf [.sig, .chunk 0x41414141#32 [], .chunk 0x49454E44#32 []] =
      bigEndianBytes 32 0x89504E470D0A1A0A_00000000_41414141_9B0D08F1_00000000_49454E44_AE426082 := by decide +kernel

/-- R30, R32, R35: after reset an unspecified register shows nothing, and a written one shows its value. -/
theorem test_view :
    State.reset.view.crc = none ∧ State.reset.view.resKind = none ∧ ready.view.crc = some 0xFFFFFFFF#32 ∧
      ready.view.ccrc = none := by decide

/-! ## Witnesses: for each obligation with hypotheses, what meets them -/

/-- R200, R201: `rst` in the middle of a payload. -/
theorem test_witness_ResetMayComeAtAnyTime : ((inRun .dat 0#3 []).setInputs [.reset]).inputs = .reset :: [] := rfl

theorem test_witness_RoundTestsTheLowBitThenShifts :
    (0x80000001#32).getLsbD 0 = true ∧ (0xFFFFFFFE#32).getLsbD 0 = false := by decide

theorem test_witness_UpdateReadsOneEntry :
    ((0xFFFFFFFF#32 ^^^ zext32 0x00#8) &&& 0xFF#32).toNat < 256 ∧ ((0#32 ^^^ zext32 0x00#8) &&& 0xFF#32).toNat < 256 := by decide

theorem test_witness_TableIsLinearAndItsEntriesDiffer : readTbl buildTable 0xFF#8 = readTbl buildTable 0xFF#8 := rfl

theorem test_witness_OneChangedByteChangesTheChecksum : (0x00#8 : Byte) ≠ 0x80#8 := by decide

theorem test_witness_BuildFillsTheTableInOneStep :
    (inRun .sig 0#3 []).ph ≠ .idle ∧ State.reset.ph = .idle ∧
      (built.ph = .idle ∧ built.tblValid = true ∧ built.tbl = buildTable) ∧
      (Instr.crcinit ≠ .build ∧ ∃ t, exec .crcinit ready = .next t) := ⟨by decide, rfl, ⟨rfl, rfl, rfl⟩, by decide, _, rfl⟩

theorem test_witness_TblrdReadsOneEntry :
    (inRun .scr 3#3 []).ph ≠ .idle ∧ (State.reset.ph = .idle ∧ State.reset.tblValid = false) ∧
      (built.ph = .idle ∧ built.tblValid = true) := by decide

theorem test_witness_CrcinitStartsAChecksum : (inRun .len 0#3 []).ph ≠ .idle ∧ State.reset.ph = .idle := by decide

theorem test_witness_CrcbyteFoldsOneByte :
    (inRun .typ 0#3 []).ph ≠ .idle ∧ (State.reset.ph = .idle ∧ State.reset.tblValid = false) ∧
      (built.ph = .idle ∧ built.tblValid = true ∧ built.written.crc = false) ∧
      (ready.ph = .idle ∧ ready.tblValid = true ∧ ready.written.crc = true) := by decide

theorem test_witness_CrcfinFinishesAChecksum :
    (inRun .dat 0#3 []).ph ≠ .idle ∧ (built.ph = .idle ∧ built.written.crc = false) ∧
      (ready.ph = .idle ∧ ready.written.crc = true) := by decide

/-- The five commands, and an instruction that is not each of those the last clauses exclude. -/
theorem test_witness_EngineCommandsLeaveTheRunsRegisters :
    (∃ t, exec .build ready = .next t) ∧ (∃ t, exec (.tblrd 0xFF#8) ready = .next t) ∧
      (∃ t, exec .crcinit ready = .next t) ∧ (∃ t, exec (.crcbyte 0x00#8) ready = .next t) ∧
      (∃ t, exec .crcfin ready = .next t) := ⟨⟨_, rfl⟩, ⟨_, rfl⟩, ⟨_, rfl⟩, ⟨_, rfl⟩, ⟨_, rfl⟩⟩

theorem test_witness_EngineCommandsComputeTheChecksum :
    let s := built.setInputs [.command 0x200#11, .command 0x361#11, .command 0x400#11]
    s.ph = .idle ∧ s.tblValid = true ∧ s.inputs = offer s.params (crcExpansion [0x61#8]) := by decide

theorem test_witness_ResetAndRebuildGiveTheSameChecksum :
    let s := (inRun .dat 0#3 [0x61#8]).setInputs [.reset, .command 0x0AB#11, .command 0x200#11, .command 0x400#11]
    s.inputs = .reset :: .command (cmdWord 0 0xAB#8) :: offer s.params (crcExpansion []) := by decide

theorem test_witness_ReservedOpcodesAreRefused : State.reset.ph = .idle ∧ (inRun .sig 7#3 []).ph ≠ .idle := by decide

theorem test_witness_ArgIsIgnoredWithoutAnOperand :
    0#3 ∈ [0#3, 2#3, 4#3, 5#3] ∧ 2#3 ∈ [0#3, 2#3, 4#3, 5#3] ∧ 4#3 ∈ [0#3, 2#3, 4#3, 5#3] ∧ 5#3 ∈ [0#3, 2#3, 4#3, 5#3] := by decide

theorem test_witness_DecodeReturnsWhatWasEncoded :
    (Instr.tblrd 0xFF#8).wf {} = true ∧ Instr.sig.wf {} = true ∧
      (Instr.chunk 0#32 0x49454E45#32 [] 0xFFFFFFFF#32).wf {} = true ∧
      (Instr.chunkTerm 1#32 [0x55#8] 0#32).wf { terminator := 0#32 } = true := by decide

theorem test_witness_EncodeReturnsWhatWasDecoded :
    decodeRecord {} true signatureBytes = .record .sig [] ∧
      decodeRecord {} false (List.replicate 13 0#8) = .record (.chunk 0#32 0#32 [] 0#32) [0#8] ∧
      cmdOp 0x1FF#11 = 1#3 ∧ cmdOp 0x300#11 = 3#3 ∧ (cmdOp 0x7FF#11 ≠ 1#3 ∧ cmdOp 0x7FF#11 ≠ 3#3) := by decide

/-- Eight clauses, at the lengths where they meet. -/
theorem test_witness_IllFormedRecordsAreRejectedByName :
    (List.replicate 7 0x89#8).length < 8 ∧
      (8 ≤ (List.replicate 8 0x89#8).length ∧ (List.replicate 8 0x89#8).take 8 ≠ signatureBytes) ∧
      (8 ≤ signatureBytes.length ∧ signatureBytes.take 8 = signatureBytes) ∧ (List.replicate 3 0#8).length < 4 ∧
      (4 ≤ (List.replicate 7 0#8).length ∧ (List.replicate 7 0#8).length < 8) ∧
      (let bs := [0#8, 0#8, 0#8, 1#8, 0#8, 0#8, 0#8, 0#8]
       8 ≤ bs.length ∧ bs.length < 8 + (be32Of (bs.take 4)).toNat) ∧
      (let bs := List.replicate 8 0#8
       8 + (be32Of (bs.take 4)).toNat ≤ bs.length ∧ bs.length < 12 + (be32Of (bs.take 4)).toNat) ∧
      (let bs := List.replicate 12 0#8
       12 + (be32Of (bs.take 4)).toNat ≤ bs.length) := by decide

theorem test_witness_ValidateLaunchesARun :
    (inRun .scr 0#3 []).ph ≠ .idle ∧ (State.reset.ph = .idle ∧ State.reset.tblValid = false) ∧
      (built.ph = .idle ∧ built.tblValid = true) := by decide

/-- R140's example at K = 7, and K = 6. -/
theorem test_witness_SignatureByteStep :
    (let s := sigAt 6#3 true [0x1A#8]
     s.ph = .sig ∧ s.src = 0x1A#8 :: [] ∧ s.k.toNat < 7) ∧
      (let s := sigAt 7#3 true [0x0A#8]
       s.ph = .sig ∧ s.src = 0x0A#8 :: [] ∧ s.k.toNat = 7 ∧ (s.sigok && 0x0A#8 == signatureByte s.k) = true) ∧
      (let s := sigAt 7#3 true [0x0B#8]
       s.ph = .sig ∧ s.src = 0x0B#8 :: [] ∧ s.k.toNat = 7 ∧ (s.sigok && 0x0B#8 == signatureByte s.k) = false) := by decide

theorem test_witness_LengthByteStep :
    (let s := inRun .len 2#3 [0x00#8]
     s.ph = .len ∧ s.src = 0x00#8 :: [] ∧ s.k.toNat < 3) ∧
      (let s := inRun .len 3#3 [0x0A#8]
       s.ph = .len ∧ s.src = 0x0A#8 :: [] ∧ 3 ≤ s.k.toNat) := by decide

theorem test_witness_TypeByteStep :
    (let s := inRun .typ 2#3 [0x41#8]
     s.ph = .typ ∧ s.src = 0x41#8 :: [] ∧ s.k.toNat < 3) ∧
      (let s := (inRun .typ 3#3 [0x41#8]).setLen 0#32
       s.ph = .typ ∧ s.src = 0x41#8 :: [] ∧ 3 ≤ s.k.toNat ∧ s.len = 0#32) ∧
      (let s := (inRun .typ 3#3 [0x41#8]).setLen 1#32
       s.ph = .typ ∧ s.src = 0x41#8 :: [] ∧ 3 ≤ s.k.toNat ∧ s.len ≠ 0#32) := by decide

theorem test_witness_PayloadByteStep :
    (let s := (inRun .dat 0#3 [0x01#8]).setCnt 2#32
     s.ph = .dat ∧ s.cnt ≠ 0#32 ∧ s.src = 0x01#8 :: [] ∧ s.cnt - 1#32 ≠ 0#32) ∧
      (let s := (inRun .dat 0#3 [0x01#8]).setCnt 0xFFFFFFFF#32
       s.ph = .dat ∧ s.cnt ≠ 0#32 ∧ s.src = 0x01#8 :: [] ∧ s.cnt - 1#32 ≠ 0#32) ∧
      (let s := (inRun .dat 0#3 [0x01#8]).setCnt 1#32
       s.ph = .dat ∧ s.cnt ≠ 0#32 ∧ s.src = 0x01#8 :: [] ∧ s.cnt - 1#32 = 0#32) := by decide

/-- K = 2; then the mismatch, the terminator, the next chunk, and an index held in 0 bits. -/
theorem test_witness_StoredByteStep :
    (let s := inRun .scr 2#3 [0x08#8]
     s.ph = .scr ∧ s.src = 0x08#8 :: [] ∧ s.k.toNat < 3) ∧
      (let s := aaaaEnd 0xF0#8
       s.ph = .scr ∧ s.src = 0xF0#8 :: [] ∧ 3 ≤ s.k.toNat ∧ s.crc ^^^ 0xFFFFFFFF#32 ≠ shiftin s.k s.scrc 0xF0#8) ∧
      (let s := iendEnd 0x82#8
       s.ph = .scr ∧ s.src = 0x82#8 :: [] ∧ 3 ≤ s.k.toNat ∧ s.crc ^^^ 0xFFFFFFFF#32 = shiftin s.k s.scrc 0x82#8 ∧
         s.typ = s.params.terminator) ∧
      (let s := aaaaEnd 0xF1#8
       s.ph = .scr ∧ s.src = 0xF1#8 :: [] ∧ 3 ≤ s.k.toNat ∧ s.crc ^^^ 0xFFFFFFFF#32 = shiftin s.k s.scrc 0xF1#8 ∧
         s.typ ≠ s.params.terminator ∧ holdsIndex s.params (s.idx + 1) = true) ∧
      (let s := { aaaaEnd 0xF1#8 with params := { idxWidth := some 0 } }
       s.ph = .scr ∧ s.src = 0xF1#8 :: [] ∧ 3 ≤ s.k.toNat ∧ s.crc ^^^ 0xFFFFFFFF#32 = shiftin s.k s.scrc 0xF1#8 ∧
         s.typ ≠ s.params.terminator ∧ holdsIndex s.params (s.idx + 1) = false) := by decide

theorem test_witness_EndOfStreamIsTruncated :
    ∀ ph ∈ [Phase.sig, Phase.len, Phase.typ, Phase.dat, Phase.scr],
      (inRun ph 0#3 []).ph = ph ∧ (inRun ph 0#3 []).ph ≠ .idle ∧ (inRun ph 0#3 []).src = [] := by decide

/-- A run ends by its last byte, and by end-of-stream. -/
theorem test_witness_EveryEndingIsATermination :
    (∃ t, streamEvent (aaaaEnd 0xF0#8) = .next t ∧ (aaaaEnd 0xF0#8).ph ≠ .idle ∧ t.ph = .idle) ∧
      (∃ t, streamEvent (inRun .typ 1#3 []) = .next t ∧ (inRun .typ 1#3 []).ph ≠ .idle ∧ t.ph = .idle) :=
  ⟨⟨_, rfl, by decide, rfl⟩, ⟨_, rfl, by decide, rfl⟩⟩

theorem test_witness_SignatureRecordCompletes :
    (let s := sigAt 0#3 true []
     s.ph = .sig ∧ s.k = 0#3 ∧ s.sigok = true) ∧
      (let s := sigAt 0#3 false []
       s.ph = .sig ∧ s.k = 0#3 ∧ s.sigok = false) := by decide

theorem test_witness_WrongSignatureIsNotThisFormat :
    let s := sigAt 0#3 true []
    let r := [0xFF#8, 0xD8#8, 0xFF#8, 0xE0#8, 0x00#8, 0x10#8, 0x4A#8, 0x46#8]
    s.ph = .sig ∧ s.k = 0#3 ∧ r.length = 8 ∧ r ≠ signatureBytes := by decide

theorem test_witness_GoodChunkContinuesTheRun :
    let s := inRun .len 0#3 []
    s.ph = .len ∧ s.k = 0#3 ∧ ([] : List Byte).length = (0#32).toNat ∧ 0x41414141#32 ≠ s.params.terminator ∧
      holdsIndex s.params (s.idx + 1) = true := by decide

theorem test_witness_WrongChunkIsAMismatch :
    let s := inRun .len 0#3 []
    s.ph = .len ∧ s.k = 0#3 ∧ ([] : List Byte).length = (0#32).toNat ∧ 0x41414141#32 ≠ s.params.terminator ∧
      0x9B0D08F0#32 ≠ checksum s.tbl (be32Bytes 0x41414141#32 ++ []) := by decide +kernel

theorem test_witness_GoodTerminatorEndsAllValid :
    let s := inRun .len 0#3 []
    s.ph = .len ∧ s.k = 0#3 ∧ [0x55#8].length = (1#32).toNat := by decide

theorem test_witness_WrongTerminatorIsAMismatch :
    let s := inRun .len 0#3 []
    s.ph = .len ∧ s.k = 0#3 ∧ ([] : List Byte).length = (0#32).toNat ∧
      0xAE426083#32 ≠ checksum s.tbl (be32Bytes s.params.terminator ++ []) := by decide +kernel

theorem test_witness_RecordsRunOnlyWhereTheyBegin :
    ¬(built.ph = .sig ∧ built.k = 0#3) ∧ ¬((inRun .len 1#3 []).ph = .len ∧ (inRun .len 1#3 []).k = 0#3) ∧
      (let s := inRun .len 0#3 []
       s.ph = .len ∧ s.k = 0#3 ∧ [0#8].length ≠ (0#32).toNat ∧ 0x49454E44#32 = s.params.terminator) := by decide

theorem test_witness_StepRunsTheDecodedCommand :
    let s := State.reset.setInputs [.command 0x000#11]
    s.ph = .idle ∧ s.inputs = .command 0x000#11 :: [] := by decide

theorem test_witness_StepTakesStreamEventsOnlyInARun :
    (∀ is : List Input, ((inRun .len 0#3 []).setInputs is).ph ≠ .idle ∧ ((inRun .len 0#3 []).setInputs is).inputs = is) ∧
      (∀ is : List Input, (built.setInputs is).ph = .idle ∧ (built.setInputs is).inputs = is) :=
  ⟨fun _ => ⟨by simp [inRun, State.setInputs], rfl⟩, fun _ => ⟨rfl, rfl⟩⟩

theorem test_witness_StepsRunTheDecodedRecord :
    (let s := sigAt 0#3 true (signatureBytes ++ [0x00#8])
     s.inputs = [] ∧ s.k = 0#3 ∧ s.ph = .sig ∧ decodeRecord s.params (s.ph == .sig) s.src = .record .sig [0x00#8]) ∧
      (let s := (inRun .len 0#3 (List.replicate 12 0#8)).setInputs [.command 0x000#11]
       (∃ w later, s.inputs = .command w :: later) ∧ s.k = 0#3 ∧ s.ph = .len ∧
         decodeRecord s.params (s.ph == .sig) s.src = .record (.chunk 0#32 0#32 [] 0#32) []) :=
  ⟨by decide, ⟨_, _, rfl⟩, by decide, by decide, by decide⟩

/-- Every row of R148's table: a state at its condition, and the step it takes. -/
theorem test_witness_PhasesFollowTheGraph :
    (∃ t, exec .validate built = .next t) ∧
      (built.ph = .idle ∧ Instr.build ≠ .validate ∧ ∃ t, exec .build built = .next t) ∧
      (∃ t, streamEvent (inRun .dat 0#3 []) = .next t ∧ (inRun .dat 0#3 []).src = []) ∧
      (∃ t, streamEvent (sigAt 6#3 true [0#8]) = .next t ∧ (sigAt 6#3 true [0#8]).k.toNat < 7) ∧
      (∃ t, streamEvent (sigAt 7#3 true [0x0A#8]) = .next t ∧ t.sigok = true) ∧
      (∃ t, streamEvent (sigAt 7#3 true [0x0B#8]) = .next t ∧ t.sigok = false) ∧
      (∃ t, streamEvent (inRun .len 2#3 [0#8]) = .next t) ∧ (∃ t, streamEvent (inRun .len 3#3 [0#8]) = .next t) ∧
      (∃ t, streamEvent (inRun .typ 2#3 [0#8]) = .next t) ∧
      (∃ t, streamEvent (inRun .typ 3#3 [0#8]) = .next t ∧ (inRun .typ 3#3 [0#8]).len = 0#32) ∧
      (∃ t, streamEvent ((inRun .typ 3#3 [0#8]).setLen 1#32) = .next t) ∧
      (∃ t, streamEvent ((inRun .dat 0#3 [0#8]).setCnt 2#32) = .next t) ∧
      (∃ t, streamEvent ((inRun .dat 0#3 [0#8]).setCnt 1#32) = .next t) ∧
      (∃ t, streamEvent (inRun .scr 2#3 [0#8]) = .next t) ∧
      (∃ t, streamEvent (aaaaEnd 0xF0#8) = .next t ∧ t.ccrc ≠ t.scrc) ∧
      (∃ t, streamEvent (iendEnd 0x82#8) = .next t ∧ t.ccrc = t.scrc ∧ (iendEnd 0x82#8).typ = 0x49454E44#32) ∧
      (∃ t, streamEvent (aaaaEnd 0xF1#8) = .next t ∧ t.ccrc = t.scrc ∧ (aaaaEnd 0xF1#8).typ ≠ 0x49454E44#32) :=
  ⟨⟨_, rfl⟩, ⟨rfl, by decide, _, rfl⟩, ⟨_, rfl, rfl⟩, ⟨_, rfl, by decide⟩, ⟨_, rfl, rfl⟩, ⟨_, rfl, rfl⟩, ⟨_, rfl⟩, ⟨_, rfl⟩, ⟨_, rfl⟩, ⟨_, rfl, rfl⟩,
    ⟨_, rfl⟩, ⟨_, rfl⟩, ⟨_, rfl⟩, ⟨_, rfl⟩, ⟨_, rfl, by decide⟩, ⟨_, rfl, by decide, rfl⟩, ⟨_, rfl, by decide, by decide⟩⟩

theorem test_witness_ReadOfNBytesIsNSingleReads :
    0 ≤ (inRun .len 0#3 []).src.length ∧ 1 ≤ (inRun .len 0#3 [0#8]).src.length ∧ (inRun .len 0#3 [0#8]).src.length < 2 := by
  decide

theorem test_witness_ShortSignatureIsTruncated :
    (signatureBytes.take 7).length < 8 ∧ (List.replicate 7 0#8).length < 8 ∧
      (8 ≤ (List.replicate 8 0#8).length ∧ (List.replicate 8 0#8).take 8 ≠ signatureBytes) := by decide

theorem test_witness_TheTwoLevelsAgree :
    let s := (built.setSrc [0x89#8]).setInputs [.command 0x5FF#11]
    s.ph = .idle ∧ s.tblValid = true ∧ s.params.idxWidth = none ∧ decodeCommand 0x5FF#11 = .validate ∧
      s.inputs = [.command 0x5FF#11] := by decide

theorem test_witness_EveryRunEnds :
    let s := inRun .dat 0#3 [0#8]
    s.ph ≠ .idle ∧ s.inputs = [] ∧ s.params.idxWidth = none := by decide

/-! ## Witnesses that need the invariant -/

/-- A state in the signature satisfies the invariant. -/
theorem sigAt_inv (k : BitVec 3) (ok : Bool) (src : List Byte) : (sigAt k ok src).Inv := by
  constructor <;> simp [sigAt, built, State.buildTbl, State.reset, Phase.inChunk, holdsIndex]

/-- A state at the last byte of an empty chunk 0 satisfies the invariant. -/
theorem chunkEnd_inv (typ crc scrc : Word) (src : List Byte) : (chunkEnd typ crc scrc src).Inv := by
  constructor <;>
    simp [chunkEnd, built, State.buildTbl, State.reset, Phase.inChunk, holdsIndex, allWritten, State.chunksEnd,
      State.recordOffset]

/-- After reset and BUILD the invariant holds. -/
theorem built_inv : built.Inv := by
  constructor <;> simp [built, State.buildTbl, State.reset, Phase.inChunk, holdsIndex]

theorem test_witness_StartUpSequenceGivesTheOutcome :
    (let s := (inRun .dat 0#3 []).setInputs [.reset, .command (cmdWord 0 0), .connect [], .command (cmdWord 5 0)]
     s.params.idxWidth = none ∧
       s.inputs = [.reset, .command (cmdWord 0 0), .connect [], .command (cmdWord 5 0)]) ∧
      (built.Inv ∧ built.ph = .idle ∧ built.tblValid = true) := ⟨⟨rfl, rfl⟩, built_inv, rfl, rfl⟩

theorem test_witness_EveryStepKeepsTheInvariant :
    (sigAt 7#3 true [0x0A#8]).Inv ∧ ∃ t, step (sigAt 7#3 true [0x0A#8]) = .next t ∧ t.ph = .len :=
  ⟨sigAt_inv _ _ _, _, rfl, rfl⟩

theorem test_witness_StreamIsConsumedStrictlyForward :
    (∃ t, streamEvent (sigAt 0#3 true [0x89#8]) = .next t) ∧ (∃ t, streamEvent (sigAt 0#3 true []) = .next t) :=
  ⟨⟨_, rfl⟩, ⟨_, rfl⟩⟩

theorem test_witness_OneEventPerCompleteChunk :
    (∃ t, streamEvent (aaaaEnd 0xF1#8) = .next t ∧ t.evt.length = 1) ∧
      (∃ t, streamEvent (inRun .scr 3#3 []) = .next t ∧ t.evt.length = 0) := ⟨⟨_, rfl, rfl⟩, ⟨_, rfl, rfl⟩⟩

theorem test_witness_OnlyBuildOrResetChangesTheTable :
    (∃ t, step ready = .next t) ∧ (∃ t, step (State.reset.setInputs [.command 0x000#11]) = .next t) ∧
      (∃ t, step (built.setInputs [.reset]) = .next t) := ⟨⟨_, rfl⟩, ⟨_, rfl⟩, ⟨_, rfl⟩⟩

theorem test_witness_AResultAppearsOnlyAtTheEndOfARun :
    ∃ t, step (aaaaEnd 0xF0#8) = .next t ∧ (aaaaEnd 0xF0#8).resValid = false ∧ t.resValid = true ∧
      (aaaaEnd 0xF0#8).ph ≠ .idle ∧ t.ph = .idle ∧ ∀ rest, (aaaaEnd 0xF0#8).inputs ≠ .reset :: rest :=
  ⟨_, rfl, rfl, rfl, by decide, rfl, fun _ => List.cons_ne_nil _ _ ∘ Eq.symm⟩

theorem test_witness_AResultLastsUntilValidateOrReset :
    let s := (built.terminate .allValid .none).setInputs [.command 0x101#11]
    (s.ph = .idle ∧ ∃ t, step s = .next t) ∧ (∀ rest, s.inputs ≠ .reset :: rest) ∧
      (∀ w rest, s.inputs = .command w :: rest → decodeCommand w ≠ .validate) := by
  refine ⟨⟨rfl, _, rfl⟩, fun rest h => ?_, fun w rest h => ?_⟩
  · exact nomatch h
  · cases h; decide

/-- One run's last step for each outcome. -/
theorem test_witness_OutcomeRegistersAreAsListed :
    ((iendEnd 0x82#8).Inv ∧ (iendEnd 0x82#8).ph ≠ .idle ∧
        ∃ t, streamEvent (iendEnd 0x82#8) = .next t ∧ t.ph = .idle ∧ t.resKind = .allValid) ∧
      ((sigAt 7#3 true [0x0B#8]).Inv ∧ (sigAt 7#3 true [0x0B#8]).ph ≠ .idle ∧
        ∃ t, streamEvent (sigAt 7#3 true [0x0B#8]) = .next t ∧ t.ph = .idle ∧ t.resKind = .notThisFormat) ∧
      ((aaaaEnd 0xF0#8).Inv ∧ (aaaaEnd 0xF0#8).ph ≠ .idle ∧
        ∃ t, streamEvent (aaaaEnd 0xF0#8) = .next t ∧ t.ph = .idle ∧ t.resKind = .mismatch) ∧
      ((chunkEnd 0#32 0#32 0#32 []).Inv ∧ (chunkEnd 0#32 0#32 0#32 []).ph ≠ .idle ∧
        ∃ t, streamEvent (chunkEnd 0#32 0#32 0#32 []) = .next t ∧ t.ph = .idle ∧ t.resKind = .truncated ∧
          t.resField = .crc) :=
  ⟨⟨chunkEnd_inv _ _ _ _, by decide, _, rfl, rfl, rfl⟩, ⟨sigAt_inv _ _ _, by decide, _, rfl, rfl, rfl⟩,
    ⟨chunkEnd_inv _ _ _ _, by decide, _, rfl, rfl, rfl⟩, ⟨chunkEnd_inv _ _ _ _, by decide, _, rfl, rfl, rfl, rfl⟩⟩

/-- The refusal of a stream event (an index held in 0 bits), and a whole step refused for each of the three reasons. -/
theorem test_witness_RefusalsAreTheClosedList :
    let s := { aaaaEnd 0xF1#8 with params := { idxWidth := some 0 } }
    (s.ph ≠ .idle ∧ streamEvent s = .refused .indexOverflow) ∧ step s = .refused .indexOverflow ∧
      step (built.setInputs [.command 0x400#11]) = .refused .crcUnwritten ∧
      step ((inRun .len 0#3 []).setInputs [.connect []]) = .refused .sourceNotExclusive :=
  ⟨⟨by decide, rfl⟩, rfl, rfl, rfl⟩

end Sys2Proof.Tests
end

/-! The state of the block: what a command and a stream event leave alone, and the invariant that every step keeps. -/

namespace Sys2Proof.Machine

/-! ## What a command leaves alone (spec/40_crc_engine.md section 3) -/

/-- The registers of a run, with the source, the parameters and the host's actions: what BUILD, TBLRD, CRCINIT, CRCBYTE and
CRCFIN leave as it is. -/
structure SameRun (s t : State) : Prop where
  resValid : t.resValid = s.resValid
  resKind : t.resKind = s.resKind
  resField : t.resField = s.resField
  idx : t.idx = s.idx
  pos : t.pos = s.pos
  typ : t.typ = s.typ
  scrc : t.scrc = s.scrc
  len : t.len = s.len
  sigok : t.sigok = s.sigok
  evt : t.evt = s.evt
  ph : t.ph = s.ph
  k : t.k = s.k
  cnt : t.cnt = s.cnt
  src : t.src = s.src
  params : t.params = s.params
  inputs : t.inputs = s.inputs
  writtenLen : t.written.len = s.written.len
  writtenTyp : t.written.typ = s.written.typ
  writtenScrc : t.written.scrc = s.written.scrc
  writtenCnt : t.written.cnt = s.written.cnt
  writtenResKind : t.written.resKind = s.written.resKind
  writtenResField : t.written.resField = s.written.resField

theorem buildTbl_sameRun (s : State) : SameRun s s.buildTbl := by constructor <;> rfl

theorem setTdat_sameRun (s : State) (v : Word) : SameRun s (s.setTdat v) := by constructor <;> rfl

theorem setCrc_sameRun (s : State) (v : Word) : SameRun s (s.setCrc v) := by constructor <;> rfl

theorem setCcrc_sameRun (s : State) (v : Word) : SameRun s (s.setCcrc v) := by constructor <;> rfl

/-- An accepted command launches a run or leaves the run's registers alone. -/
theorem exec_command_sameRun {w : BitVec 11} {s t : State} (h : exec (decodeCommand w) s = .next t) :
    SameRun s t ∨ (decodeCommand w = .validate ∧ s.tblValid = true ∧ t = s.launch) := by
  obtain ⟨-, ⟨-, rfl⟩ | ⟨i, -, -, rfl⟩ | ⟨-, rfl⟩ | ⟨b, -, -, -, rfl⟩ | ⟨-, -, rfl⟩ | launched⟩ := exec_command_cases h
  · exact .inl (buildTbl_sameRun s)
  · exact .inl (setTdat_sameRun s _)
  · exact .inl (setCrc_sameRun s _)
  · exact .inl (setCrc_sameRun s _)
  · exact .inl (setCcrc_sameRun s _)
  · exact .inr launched

/-- The table after an accepted command: built by BUILD, otherwise as it was. -/
theorem exec_command_table {w : BitVec 11} {s t : State} (h : exec (decodeCommand w) s = .next t) :
    (t.tbl = s.tbl ∧ t.tblValid = s.tblValid) ∨ (decodeCommand w = .build ∧ t.tbl = buildTable ∧ t.tblValid = true) := by
  obtain ⟨-, ⟨hd, rfl⟩ | ⟨i, -, -, rfl⟩ | ⟨-, rfl⟩ | ⟨b, -, -, -, rfl⟩ | ⟨-, -, rfl⟩ | ⟨-, -, rfl⟩⟩ := exec_command_cases h
  case inl => exact .inr ⟨hd, rfl, rfl⟩
  all_goals exact .inl ⟨rfl, rfl⟩

theorem exec_command_params {w : BitVec 11} {s t : State} (h : exec (decodeCommand w) s = .next t) :
    t.params = s.params := by
  obtain same | ⟨-, -, rfl⟩ := exec_command_sameRun h
  · exact same.params
  · rfl

theorem cmdOp_cmdWord (op : BitVec 3) (arg : Byte) : cmdOp (cmdWord op arg) = op := BitVec.extractLsb'_append_eq_left

theorem cmdArg_cmdWord (op : BitVec 3) (arg : Byte) : cmdArg (cmdWord op arg) = arg := BitVec.extractLsb'_append_eq_right

/-- The engine's commands are rows of the opcode map (R62). -/
theorem engine_command_word {i : Instr}
    (h : i = .build ∨ (∃ n, i = .tblrd n) ∨ i = .crcinit ∨ (∃ b, i = .crcbyte b) ∨ i = .crcfin) :
    i ≠ .validate ∧ ∃ w, decodeCommand w = i := by
  obtain rfl | ⟨n, rfl⟩ | rfl | ⟨b, rfl⟩ | rfl := h
  · exact ⟨nofun, cmdWord 0 0, by simp [decodeCommand, cmdOp_cmdWord]⟩
  · exact ⟨nofun, cmdWord 1 n, by simp [decodeCommand, cmdOp_cmdWord, cmdArg_cmdWord]⟩
  · exact ⟨nofun, cmdWord 2 0, by simp [decodeCommand, cmdOp_cmdWord]⟩
  · exact ⟨nofun, cmdWord 3 b, by simp [decodeCommand, cmdOp_cmdWord, cmdArg_cmdWord]⟩
  · exact ⟨nofun, cmdWord 4 0, by simp [decodeCommand, cmdOp_cmdWord]⟩

/-- Settles O15: an engine command is a command word, and each of them writes only the registers that its name allows. -/
theorem engineCommandsLeaveTheRunsRegisters : Obligations.EngineCommandsLeaveTheRunsRegisters := by
  intro i s t hi h
  obtain ⟨hv, w, rfl⟩ := engine_command_word hi
  have same : SameRun s t := (exec_command_sameRun h).resolve_right fun launched => hv launched.1
  refine ⟨same.resValid, same.resKind, same.resField, same.idx, same.pos, same.typ, same.scrc, same.len, same.sigok,
    same.evt, same.ph, same.k, same.cnt, same.src, same.params, same.inputs, same.writtenLen, same.writtenTyp,
    same.writtenScrc, same.writtenCnt, same.writtenResKind, same.writtenResField, ?_⟩
  obtain ⟨-, ⟨hd, rfl⟩ | ⟨n, hd, -, rfl⟩ | ⟨hd, rfl⟩ | ⟨b, hd, -, hw, rfl⟩ | ⟨hd, -, rfl⟩ | ⟨hd, -, -⟩⟩ := exec_command_cases h
  · simp [hd]
  · simp [hd]
  · simp [hd]
  · simp [hd, hw]
  · simp [hd]
  · exact absurd hd hv

/-! ## What a stream event can do -/

/-- What one byte of a run, already counted, leaves as it is or ends: POS stays, and the run goes on without a change of
RES_VALID or is over with a result. -/
structure RunOrResult (s t : State) : Prop where
  pos : t.pos = s.pos
  phase : (t.ph ≠ .idle ∧ t.resValid = s.resValid) ∨ (t.ph = .idle ∧ t.resValid = true)

theorem RunOrResult.goesOn {s t : State} (hpos : t.pos = s.pos) (hp : t.ph ≠ .idle) (hr : t.resValid = s.resValid) :
    RunOrResult s t := ⟨hpos, .inl ⟨hp, hr⟩⟩

theorem RunOrResult.terminates {s u : State} (kind : ResKind) (field : ResField) (hpos : u.pos = s.pos) :
    RunOrResult s (u.terminate kind field) := ⟨hpos, .inr ⟨rfl, rfl⟩⟩

theorem sigByte_runOrResult {b : Byte} {s : State} (hp : s.ph = .sig) : RunOrResult s (sigByte b s) := by
  by_cases hk : s.k < 7#3
  · rw [sigByte_early hk]; exact .goesOn rfl (by simp [hp]) rfl
  · cases ho : s.sigokAfter b
    · rw [sigByte_differs hk ho]; exact .terminates _ _ rfl
    · rw [sigByte_verified hk ho]; exact .goesOn rfl (by simp) rfl

theorem lenByte_runOrResult {b : Byte} {s : State} (hp : s.ph = .len) : RunOrResult s (lenByte b s) := by
  by_cases hk : s.k < 3#3
  · rw [lenByte_early hk]; exact .goesOn rfl (by simp [hp]) rfl
  · rw [lenByte_last hk]; exact .goesOn rfl (by simp) rfl

theorem typByte_runOrResult {b : Byte} {s : State} (hp : s.ph = .typ) : RunOrResult s (typByte b s) := by
  by_cases hk : s.k < 3#3
  · rw [typByte_early hk]; exact .goesOn rfl (by simp [hp]) rfl
  · by_cases hl : s.len = 0#32
    · rw [typByte_last_empty hk hl]; exact .goesOn rfl (by simp) rfl
    · rw [typByte_last_payload hk hl]; exact .goesOn rfl (by simp) rfl

theorem datByte_runOrResult {b : Byte} {s : State} (hp : s.ph = .dat) : RunOrResult s (datByte b s) := by
  by_cases hc : s.cnt - 1#32 = 0#32
  · rw [datByte_last hc]; exact .goesOn rfl (by simp) rfl
  · rw [datByte_more hc]; exact .goesOn rfl (by simp [hp]) rfl

theorem finishChunk_runOrResult {stored : Word} {s t : State} (h : finishChunk stored s = .next t) : RunOrResult s t := by
  obtain ⟨-, h'⟩ | ⟨-, -, h'⟩ | ⟨-, -, -, h'⟩ | ⟨-, -, -, h'⟩ := finishChunk_cases stored s <;> rw [h'] at h <;> cases h
  · exact .terminates _ _ rfl
  · exact .terminates _ _ rfl
  · exact .goesOn rfl (by simp) rfl

theorem onByte_runOrResult {b : Byte} {s t : State} (h : onByte b s = .next t) : RunOrResult s t := by
  obtain ⟨hp, rfl⟩ | ⟨hp, rfl⟩ | ⟨hp, rfl⟩ | ⟨hp, rfl⟩ | ⟨hp, -, rfl⟩ | ⟨-, -, hf⟩ := onByte_cases h
  · exact sigByte_runOrResult hp
  · exact lenByte_runOrResult hp
  · exact typByte_runOrResult hp
  · exact datByte_runOrResult hp
  · exact .goesOn rfl (by simp [hp]) rfl
  · obtain ⟨hpos, phase⟩ := finishChunk_runOrResult hf
    exact ⟨hpos, phase⟩

/-- A stream event takes the next byte by the phase's rule, or ends the run. -/
theorem streamEvent_cases {s t : State} (h : streamEvent s = .next t) :
    (s.src = [] ∧ t = onEos s) ∨
    ∃ b rest, s.src = b :: rest ∧ onByte b (s.setSrc rest).advance = .next t := by
  cases hs : s.src with
  | nil => rw [streamEvent_of_nil hs] at h; cases h; exact .inl ⟨rfl, rfl⟩
  | cons b rest => rw [streamEvent_of_cons hs] at h; exact .inr ⟨b, rest, rfl, h⟩

/-- A stream event keeps the table and the parameters. -/
theorem streamEvent_table {s t : State} (h : streamEvent s = .next t) :
    t.params = s.params ∧ t.tbl = s.tbl ∧ t.tblValid = s.tblValid := by
  obtain ⟨-, rfl⟩ | ⟨b, rest, -, hb⟩ := streamEvent_cases h
  · exact ⟨rfl, rfl, rfl⟩
  · have around := onByte_around hb
    exact ⟨around.params, around.tbl, around.tblValid⟩

/-- After a stream event the run goes on with RES_VALID as it was, or is over with a result. -/
theorem streamEvent_phase {s t : State} (h : streamEvent s = .next t) :
    (t.ph ≠ .idle ∧ t.resValid = s.resValid) ∨ (t.ph = .idle ∧ t.resValid = true) := by
  obtain ⟨-, rfl⟩ | ⟨b, rest, -, hb⟩ := streamEvent_cases h
  · exact .inr ⟨rfl, rfl⟩
  · exact (onByte_runOrResult hb).phase

/-- Settles O53: the byte is gone from the source and counted before its rule applies, and no rule touches either. -/
theorem streamIsConsumedStrictlyForward : Obligations.StreamIsConsumedStrictlyForward := by
  intro s t h
  obtain ⟨hs, rfl⟩ | ⟨b, rest, hs, hb⟩ := streamEvent_cases h
  · exact .inr ⟨hs, hs, rfl, rfl, rfl⟩
  · exact .inl ⟨b, rest, hs, (onByte_around hb).src, (onByte_runOrResult hb).pos⟩

/-! ## What a step can do to the table and to the result -/

/-- The cases of `step_cases`, those alike taken together: an idle block at most takes over what the host gives it, a run takes
a stream event, an idle block accepts a command, the host resets. -/
theorem step_idle_event_command_reset {s t : State} (h : step s = .next t) :
    (s.ph = .idle ∧ ∃ bytes inputs, t = (s.setSrc bytes).setInputs inputs) ∨
    (s.ph ≠ .idle ∧ ∃ inputs, streamEvent (s.setInputs inputs) = .next t) ∨
    (∃ w rest, s.inputs = .command w :: rest ∧ s.ph = .idle ∧ exec (decodeCommand w) (s.setInputs rest) = .next t) ∨
    (∃ rest, s.inputs = .reset :: rest ∧ t = (s.setInputs rest).applyReset) := by
  obtain ⟨hp, rfl, -⟩ | ⟨hp, he, -⟩ | ⟨rest, -, hp, rfl⟩ | ⟨rest, -, hp, he⟩ | command | reset | ⟨bytes, rest, -, hp, rfl⟩ |
    ⟨rest, -, hp, rfl⟩ := step_cases h
  · exact .inl ⟨hp, t.src, t.inputs, rfl⟩
  · exact .inr (.inl ⟨hp, s.inputs, he⟩)
  · exact .inl ⟨hp, s.src, rest, rfl⟩
  · exact .inr (.inl ⟨hp, rest, he⟩)
  · exact .inr (.inr (.inl command))
  · exact .inr (.inr (.inr reset))
  · exact .inl ⟨hp, bytes, rest, rfl⟩
  · exact .inl ⟨hp, s.src, rest, rfl⟩

/-- Settles O55: of what a step can be, only BUILD and reset write the table. -/
theorem onlyBuildOrResetChangesTheTable : Obligations.OnlyBuildOrResetChangesTheTable := by
  intro s t h
  obtain ⟨-, bytes, inputs, rfl⟩ | ⟨-, inputs, he⟩ | ⟨w, rest, hi, hp, hx⟩ | ⟨rest, hi, rfl⟩ :=
    step_idle_event_command_reset h
  · exact ⟨rfl, .inl ⟨rfl, rfl⟩⟩
  · obtain ⟨params, table⟩ := streamEvent_table he
    exact ⟨params, .inl table⟩
  · have params := exec_command_params hx
    obtain kept | ⟨hd, htbl, hvalid⟩ := exec_command_table hx
    · exact ⟨params, .inl kept⟩
    · exact ⟨params, .inr (.inl ⟨htbl, hvalid, hp, w, rest, hi, hd⟩)⟩
  · exact ⟨rfl, .inr (.inr ⟨rfl, rest, hi⟩)⟩

/-- Settles O56: outside a run no step raises RES_VALID, and an event of a run raises it exactly when the run is over. -/
theorem aResultAppearsOnlyAtTheEndOfARun : Obligations.AResultAppearsOnlyAtTheEndOfARun := by
  intro s t h
  obtain ⟨hp, bytes, inputs, rfl⟩ | ⟨hp, inputs, he⟩ | ⟨w, rest, -, hp, hx⟩ | ⟨rest, hi, rfl⟩ :=
    step_idle_event_command_reset h
  · exact ⟨fun hv hv' => absurd hv' (by simp [hv]), fun hr => absurd hp hr⟩
  · obtain ⟨hr, hkept⟩ | ⟨hidle, hres⟩ := streamEvent_phase he
    · exact ⟨fun hv hv' => absurd hv' (by simp [hkept, hv]), fun _ hidle => absurd hidle hr⟩
    · exact ⟨fun _ _ => ⟨hp, hidle⟩, fun _ _ _ => hres⟩
  · refine ⟨fun hv hv' => absurd hv' ?_, fun hr => absurd hp hr⟩
    obtain same | ⟨-, -, rfl⟩ := exec_command_sameRun hx
    · simp [same.resValid, hv]
    · simp
  · exact ⟨fun _ hv' => absurd hv' (by simp [State.reset]), fun _ _ hr => absurd hi (hr rest)⟩

/-! ## The invariant outside a run -/

/-- A state outside a run is sound if its table, its trace and its result are. -/
theorem inv_of_idle {s : State} (hp : s.ph = .idle) (hk : s.k = 0#3) (table : s.tblValid = true → s.tbl = buildTable)
    (held : holdsIndex s.params s.idx = true) (numbered : ∀ n, (h : n < s.evt.length) → (s.evt[n]'h).index = n)
    (verified : ∀ e ∈ s.evt.dropLast, e.stored = e.computed ∧ e.typ ≠ s.params.terminator)
    (result : s.resValid = true → s.written.resKind = true ∧ s.written.resField = true ∧ s.outcomeFits) : s.Inv where
  table_built := table
  run_has_table hr := absurd hp hr
  run_has_no_result hr := absurd hp hr
  k_rests _ := hk
  k_in_field := by simp [hp]
  payload_left := by simp [hp]
  sig_is_first := by simp [hp]
  chunk_after_signature := by simp [hp, Phase.inChunk]
  chunk_position := by simp [hp, Phase.inChunk]
  index_held := held
  evt_numbered := numbered
  evt_verified := by simpa only [hp, if_true] using verified
  run_reads_written := by simp [hp]
  result_fits := result

/-- The index 0 fits any width. -/
theorem holdsIndex_zero (p : Params) : holdsIndex p 0 = true := by
  unfold holdsIndex
  split
  · rfl
  · simp

theorem applyReset_inv (s : State) : s.applyReset.Inv :=
  inv_of_idle rfl rfl nofun (holdsIndex_zero _) nofun nofun nofun

/-- No relation of the invariant speaks of the source or of the host's actions. -/
theorem State.Inv.setSrc_setInputs {s : State} (h : s.Inv) (bytes : List Byte) (inputs : List Input) :
    ((s.setSrc bytes).setInputs inputs).Inv :=
  ⟨h.table_built, h.run_has_table, h.run_has_no_result, h.k_rests, h.k_in_field, h.payload_left, h.sig_is_first,
    h.chunk_after_signature, h.chunk_position, h.index_held, h.evt_numbered, h.evt_verified, h.run_reads_written, h.result_fits⟩

theorem outcomeFits_of_sameRun {s t : State} (same : SameRun s t) : t.outcomeFits ↔ s.outcomeFits := by
  simp only [State.outcomeFits, State.chunksEnd, same.resKind, same.resField, same.sigok, same.evt, same.idx, same.pos]

/-- Outside a run, an update that leaves the run's registers and a sound table keeps the invariant. -/
theorem State.Inv.of_sameRun {s t : State} (h : s.Inv) (hp : s.ph = .idle) (same : SameRun s t)
    (table : t.tblValid = true → t.tbl = buildTable) : t.Inv := by
  refine inv_of_idle (same.ph.trans hp) (same.k.trans (h.k_rests (.inl hp))) table ?held ?numbered ?verified ?result
  case held => rw [same.params, same.idx]; exact h.index_held
  case numbered => rw [same.evt]; exact h.evt_numbered
  case verified =>
    rw [same.params, same.evt]
    simpa only [hp, if_true] using h.evt_verified
  case result =>
    rw [same.resValid, same.writtenResKind, same.writtenResField, outcomeFits_of_sameRun same]
    exact h.result_fits

/-! ## The invariant in a run -/

/-- What a sound run has in every phase: its table, no result, and a trace of verified chunks. -/
structure State.RunBase (s : State) : Prop where
  tblValid : s.tblValid = true
  tbl : s.tbl = buildTable
  resValid : s.resValid = false
  held : holdsIndex s.params s.idx = true
  numbered : ∀ n, (h : n < s.evt.length) → (s.evt[n]'h).index = n
  verified : ∀ e ∈ s.evt, e.stored = e.computed ∧ e.typ ≠ s.params.terminator

/-- A run that has verified its signature and consumed `offset` bytes of the current chunk record. -/
structure State.ChunkAt (s : State) (offset : Nat) : Prop where
  sigok : s.sigok = true
  evt_length : s.evt.length = s.idx
  pos : s.pos = s.chunksEnd + offset

/-- What a sound run has in each phase besides: where it is, and which registers it has written. -/
def Phase.fits : Phase → State → Prop
  | .idle, _ => False
  | .sig, s => s.pos = s.k.toNat ∧ s.idx = 0 ∧ s.evt = []
  | .len, s => s.ChunkAt s.k.toNat ∧ s.k.toNat ≤ 3 ∧ (s.k ≠ 0#3 → s.written.len = true)
  | .typ, s =>
    s.ChunkAt (4 + s.k.toNat) ∧ s.k.toNat ≤ 3 ∧ s.written.crc = true ∧ s.written.len = true ∧
      (s.k ≠ 0#3 → s.written.typ = true)
  | .dat, s =>
    s.ChunkAt (8 + (s.len.toNat - s.cnt.toNat)) ∧ s.k = 0#3 ∧ (1 ≤ s.cnt.toNat ∧ s.cnt.toNat ≤ s.len.toNat) ∧
      s.written.crc = true ∧ s.written.len = true ∧ s.written.typ = true ∧ s.written.cnt = true
  | .scr, s =>
    s.ChunkAt (8 + s.len.toNat + s.k.toNat) ∧ s.k.toNat ≤ 3 ∧ s.written.crc = true ∧ s.written.len = true ∧
      s.written.typ = true ∧ (s.k ≠ 0#3 → s.written.scrc = true)

/-- The invariant in a run, taken apart by phase. -/
theorem State.Inv.run {s : State} {ph : Phase} (h : s.Inv) (hp : s.ph = ph) (hr : ph ≠ .idle) :
    s.RunBase ∧ ph.fits s := by
  have hi : s.ph ≠ .idle := by rwa [hp]
  have hv := h.run_has_table hi
  refine ⟨⟨hv, h.table_built hv, h.run_has_no_result hi, h.index_held, h.evt_numbered, ?_⟩, ?_⟩
  · simpa only [hi, if_false] using h.evt_verified
  have chunk (hc : s.ph.inChunk = true) : s.ChunkAt s.recordOffset :=
    ⟨h.chunk_after_signature hc, (h.chunk_position hc).1, (h.chunk_position hc).2⟩
  have reads := h.run_reads_written
  have krests := h.k_rests
  have kin := h.k_in_field
  cases ph
  case idle => exact absurd rfl hr
  case sig => exact h.sig_is_first hp
  all_goals simp_all [Phase.inChunk, Phase.fits, State.recordOffset]
  exact h.payload_left hp

/-- In a chunk the phase's relations include the position. -/
theorem Phase.fits.chunkAt {s : State} {ph : Phase} (fits : ph.fits s) (hp : s.ph = ph) (hc : ph.inChunk = true) :
    s.ChunkAt s.recordOffset := by
  cases ph <;> simp only [State.recordOffset, hp]
  case idle => cases hc
  case sig => cases hc
  all_goals exact fits.1

/-- A run is sound if it has what `State.RunBase` says and its phase fits. -/
theorem inv_of_run {s : State} {ph : Phase} (hp : s.ph = ph) (base : s.RunBase) (fits : ph.fits s) : s.Inv := by
  have hi : s.ph ≠ .idle := by rintro hi; rw [← hp, hi] at fits; exact fits
  have chunk (hc : s.ph.inChunk = true) : s.ChunkAt s.recordOffset := fits.chunkAt hp (hp ▸ hc)
  refine
    { table_built := fun _ => base.tbl
      run_has_table := fun _ => base.tblValid
      run_has_no_result := fun _ => base.resValid
      index_held := base.held
      evt_numbered := base.numbered
      evt_verified := by simpa only [hi, if_false] using base.verified
      result_fits := by simp [base.resValid]
      chunk_after_signature := fun hc => (chunk hc).sigok
      chunk_position := fun hc => ⟨(chunk hc).evt_length, (chunk hc).pos⟩
      k_rests := ?_, k_in_field := ?_, payload_left := ?_, sig_is_first := ?_, run_reads_written := ?_ }
  all_goals cases ph <;> simp_all [Phase.fits]

/-! ## The rules of a run keep the invariant -/

/-- An update of other fields keeps what holds in every phase. -/
theorem State.RunBase.of_same {s t : State} (h : s.RunBase)
    (same : (t.tblValid, t.tbl, t.resValid, t.params, t.idx, t.evt) =
      (s.tblValid, s.tbl, s.resValid, s.params, s.idx, s.evt)) : t.RunBase := by
  simp only [Prod.mk.injEq] at same
  obtain ⟨hv, ht, hr, hp, hi, he⟩ := same
  obtain ⟨tblValid, tbl, resValid, held, numbered, verified⟩ := h
  constructor <;> simp only [hv, ht, hr, hp, hi, he] <;> assumption

/-- One more byte of the record is consumed. -/
theorem State.ChunkAt.next {s t : State} {offset offset' : Nat} (h : s.ChunkAt offset)
    (same : (t.sigok, t.evt, t.idx, t.pos) = (s.sigok, s.evt, s.idx, s.pos + 1)) (ho : offset' = offset + 1) :
    t.ChunkAt offset' := by
  simp only [Prod.mk.injEq] at same
  obtain ⟨hs, he, hi, hp⟩ := same
  refine ⟨hs.trans h.sigok, by rw [he, hi, h.evt_length], ?_⟩
  rw [hp, h.pos, ho, State.chunksEnd, State.chunksEnd, he, Nat.add_assoc]

/-- `K` counts without wrapping (R21). -/
theorem k_succ_toNat {k : BitVec 3} (h : k.toNat < 7) : (k + 1#3).toNat = k.toNat + 1 := by
  rw [BitVec.toNat_add]
  exact Nat.mod_eq_of_lt (by simpa using by omega)

/-- A byte before the fourth of a field leaves `K` in the field. -/
theorem k_succ_in_field {k : BitVec 3} (h : k < 3#3) : (k + 1#3).toNat = k.toNat + 1 ∧ (k + 1#3).toNat ≤ 3 := by
  rw [k_lt_three_iff] at h
  have hk := k_succ_toNat (k := k) (by omega)
  exact ⟨hk, hk.trans_le h⟩

theorem k_eq_three {k : BitVec 3} (hk : k.toNat ≤ 3) (h : ¬ k < 3#3) : k.toNat = 3 := by
  rw [k_lt_three_iff] at h
  omega

theorem sigByte_inv {b : Byte} {s : State} (h : s.Inv) (hp : s.ph = .sig) : (sigByte b s.advance).Inv := by
  obtain ⟨base, hpos, hidx, hevt⟩ := h.run hp nofun
  by_cases hk : s.k < 7#3
  · rw [sigByte_early (s := s.advance) hk]
    exact inv_of_run hp (base.of_same rfl)
      ⟨(congrArg (· + 1) hpos).trans (k_succ_toNat ((k_lt_seven_iff _).1 hk)).symm, hidx, hevt⟩
  have hpos8 : s.pos + 1 = 8 := by
    rw [k_lt_seven_iff] at hk
    omega
  cases ho : s.advance.sigokAfter b
  · rw [sigByte_differs (s := s.advance) hk ho]
    exact inv_of_idle rfl rfl (fun _ => base.tbl) base.held base.numbered
      (fun e he => base.verified e (List.mem_of_mem_dropLast he))
      fun _ => ⟨rfl, rfl, rfl, ho, hidx, hevt, hpos8⟩
  · rw [sigByte_verified (s := s.advance) hk ho]
    refine inv_of_run (ph := .len) rfl (base.of_same rfl) ⟨⟨ho, ?_, ?_⟩, Nat.zero_le _, fun hk => absurd rfl hk⟩
    · simp [hevt, hidx]
    · simp [State.chunksEnd, hevt, hpos8]

theorem lenByte_inv {b : Byte} {s : State} (h : s.Inv) (hp : s.ph = .len) : (lenByte b s.advance).Inv := by
  obtain ⟨base, chunk, hk3, -⟩ := h.run hp nofun
  by_cases hk : s.k < 3#3
  · rw [lenByte_early (s := s.advance) hk]
    obtain ⟨hk', hk3'⟩ := k_succ_in_field hk
    exact inv_of_run hp (base.of_same rfl) ⟨chunk.next rfl hk', hk3', fun _ => rfl⟩
  · rw [lenByte_last (s := s.advance) hk]
    exact inv_of_run (ph := .typ) rfl (base.of_same rfl)
      ⟨chunk.next rfl (by simp [k_eq_three hk3 hk]), Nat.zero_le _, rfl, rfl, fun hk => absurd rfl hk⟩

theorem typByte_inv {b : Byte} {s : State} (h : s.Inv) (hp : s.ph = .typ) : (typByte b s.advance).Inv := by
  obtain ⟨base, chunk, hk3, -, hlen, -⟩ := h.run hp nofun
  by_cases hk : s.k < 3#3
  · rw [typByte_early (s := s.advance) hk]
    obtain ⟨hk', hk3'⟩ := k_succ_in_field hk
    exact inv_of_run hp (base.of_same rfl) ⟨chunk.next rfl (congrArg (4 + ·) hk'), hk3', rfl, hlen, fun _ => rfl⟩
  have hk4 := k_eq_three hk3 hk
  by_cases hl : s.len = 0#32
  · rw [typByte_last_empty (s := s.advance) hk hl]
    exact inv_of_run (ph := .scr) rfl (base.of_same rfl)
      ⟨chunk.next rfl (by simp [hl, hk4]), Nat.zero_le _, rfl, hlen, rfl, fun hk => absurd rfl hk⟩
  · rw [typByte_last_payload (s := s.advance) hk hl]
    have hl1 : 1 ≤ s.len.toNat := by bv_omega
    exact inv_of_run (ph := .dat) rfl (base.of_same rfl)
      ⟨chunk.next rfl (by simp [hk4]), rfl, ⟨hl1, Nat.le_refl _⟩, rfl, hlen, rfl, rfl⟩

theorem datByte_inv {b : Byte} {s : State} (h : s.Inv) (hp : s.ph = .dat) : (datByte b s.advance).Inv := by
  obtain ⟨base, chunk, hk, ⟨hc1, hcl⟩, -, hlen, htyp, -⟩ := h.run hp nofun
  by_cases hc : s.cnt - 1#32 = 0#32
  · rw [datByte_last (s := s.advance) hc]
    have hc' : s.cnt.toNat = 1 := by bv_omega
    exact inv_of_run (ph := .scr) rfl (base.of_same rfl)
      ⟨chunk.next rfl (by simp [hk]; omega), by simp [hk], rfl, hlen, htyp, fun hk' => absurd hk hk'⟩
  · rw [datByte_more (s := s.advance) hc]
    have hc' : (s.cnt - 1#32).toNat = s.cnt.toNat - 1 := by bv_omega
    have hc2 : 1 ≤ s.cnt.toNat - 1 := by bv_omega
    refine inv_of_run hp (base.of_same rfl) ⟨chunk.next rfl ?_, hk, ?_, rfl, hlen, htyp, rfl⟩
    · simp [hc']; omega
    · simp [hc']; omega

/-- A record numbered by the length of the trace keeps the numbering. -/
theorem evt_numbered_concat {l : List EvtRec} {e : EvtRec} (h : ∀ n, (hn : n < l.length) → (l[n]'hn).index = n)
    (he : e.index = l.length) : ∀ n, (hn : n < (l ++ [e]).length) → ((l ++ [e])[n]'hn).index = n := by
  intro n hn
  by_cases hl : n < l.length
  · rw [List.getElem_append_left hl]; exact h n hl
  · obtain rfl : n = l.length := by rw [List.length_append, List.length_singleton] at hn; omega
    simp [he]

/-- A record's chunk is counted by the end of the chunks read. -/
theorem chunksEnd_emit (s : State) (e : EvtRec) : (s.emit e).chunksEnd = s.chunksEnd + (12 + e.length.toNat) := by
  simp [State.chunksEnd, Nat.add_assoc]

/-- A run that ends with a completely read chunk is sound: only its last record may disagree or be the terminator. -/
theorem emit_terminate_inv {s : State} {e : EvtRec} {kind : ResKind} (base : s.RunBase)
    (chunk : s.ChunkAt (12 + e.length.toNat)) (he : e.index = s.idx) (hk : kind = .allValid ∨ kind = .mismatch) :
    ((s.emit e).terminate kind .none).Inv := by
  refine inv_of_idle rfl rfl (fun _ => base.tbl) base.held
    (evt_numbered_concat base.numbered (he.trans chunk.evt_length.symm)) ?_ fun _ => ⟨rfl, rfl, ?_⟩
  · simpa using base.verified
  · have hlen : (s.emit e).evt.length = s.idx + 1 := by simp [chunk.evt_length]
    have hpos : (s.emit e).pos = (s.emit e).chunksEnd := chunk.pos.trans (chunksEnd_emit s e).symm
    obtain rfl | rfl := hk <;> exact ⟨rfl, chunk.sigok, hlen, hpos⟩

/-- A run that goes on after a verified chunk is sound. -/
theorem emit_next_chunk_inv {s : State} {e : EvtRec} (base : s.RunBase) (chunk : s.ChunkAt (12 + e.length.toNat))
    (he : e.index = s.idx) (verified : e.stored = e.computed ∧ e.typ ≠ s.params.terminator)
    (held : holdsIndex s.params (s.idx + 1) = true) : (((s.emit e).setIdx (s.idx + 1)).enter .len).Inv := by
  have base' : (((s.emit e).setIdx (s.idx + 1)).enter .len).RunBase :=
    { tblValid := base.tblValid
      tbl := base.tbl
      resValid := base.resValid
      held := held
      numbered := evt_numbered_concat base.numbered (he.trans chunk.evt_length.symm)
      verified := List.forall_mem_append.2 ⟨base.verified, List.forall_mem_singleton.2 verified⟩ }
  refine inv_of_run (ph := .len) rfl base' ⟨⟨chunk.sigok, ?_, ?_⟩, Nat.zero_le _, fun hk => absurd rfl hk⟩
  · simp [chunk.evt_length]
  · exact chunk.pos.trans (chunksEnd_emit s e).symm

theorem finishChunk_inv {stored : Word} {s t : State} (base : s.RunBase) (chunk : s.ChunkAt (12 + s.len.toNat))
    (h : finishChunk stored s = .next t) : t.Inv := by
  have base' : (s.setCcrc (s.crc ^^^ Config.xorOut)).RunBase := base.of_same rfl
  have chunk' : (s.setCcrc (s.crc ^^^ Config.xorOut)).ChunkAt (12 + s.len.toNat) :=
    ⟨chunk.sigok, chunk.evt_length, chunk.pos⟩
  obtain ⟨-, h'⟩ | ⟨-, -, h'⟩ | ⟨hc, ht, held, h'⟩ | ⟨-, -, -, h'⟩ := finishChunk_cases stored s <;> rw [h'] at h <;> cases h
  · exact emit_terminate_inv base' chunk' rfl (.inr rfl)
  · exact emit_terminate_inv base' chunk' rfl (.inl rfl)
  · exact emit_next_chunk_inv base' chunk' rfl ⟨hc.symm, ht⟩ held

theorem scrByte_inv {b : Byte} {s t : State} (h : s.Inv) (hp : s.ph = .scr) (hb : scrByte b s.advance = .next t) :
    t.Inv := by
  obtain ⟨base, chunk, hk3, hcrc, hlen, htyp, -⟩ := h.run hp nofun
  by_cases hk : s.k < 3#3
  · rw [scrByte_early (s := s.advance) hk] at hb
    cases hb
    obtain ⟨hk', hk3'⟩ := k_succ_in_field hk
    exact inv_of_run hp (base.of_same rfl)
      ⟨chunk.next rfl (congrArg (8 + s.len.toNat + ·) hk'), hk3', hcrc, hlen, htyp, fun _ => rfl⟩
  · rw [scrByte_last (s := s.advance) hk] at hb
    refine finishChunk_inv (s := s.advance.setScrc _) (base.of_same rfl) (chunk.next rfl ?_) hb
    simp only [State.setScrc_len, State.advance_len, k_eq_three hk3 hk]
    omega

/-- The rule of the current phase keeps the invariant, the byte being counted by POS. -/
theorem onByte_inv {b : Byte} {s t : State} (h : s.Inv) (hb : onByte b s.advance = .next t) : t.Inv := by
  cases hp : s.ph <;> simp only [onByte, State.advance_ph, hp] at hb
  case idle => cases hb
  case sig => cases hb; exact sigByte_inv h hp
  case len => cases hb; exact lenByte_inv h hp
  case typ => cases hb; exact typByte_inv h hp
  case dat => cases hb; exact datByte_inv h hp
  case scr => exact scrByte_inv h hp hb

/-- The source's end may come in any phase: in the signature nothing was read, in a chunk POS is past the chunks read. -/
theorem onEos_inv {s : State} (h : s.Inv) (hr : s.ph ≠ .idle) : (onEos s).Inv := by
  obtain ⟨base, fits⟩ := h.run rfl hr
  refine inv_of_idle rfl rfl (fun _ => base.tbl) base.held base.numbered
    (fun e he => base.verified e (List.mem_of_mem_dropLast he)) fun _ => ⟨rfl, rfl, ?_⟩
  cases hc : s.ph.inChunk
  · have hp : s.ph = .sig := by cases hp : s.ph <;> simp_all [Phase.inChunk]
    obtain ⟨hpos, hidx, hevt⟩ := h.sig_is_first hp
    have hpos8 : s.pos < 8 := hpos ▸ s.k.isLt
    simp [onEos, State.outcomeFits, hp, Phase.field, hidx, hevt, hpos8]
  · have chunk := fits.chunkAt rfl hc
    have hle : s.chunksEnd ≤ s.pos := by rw [chunk.pos]; exact Nat.le_add_right _ _
    have hfield : s.ph.field ≠ .none ∧ s.ph.field ≠ .signature := by
      cases hp : s.ph <;> simp_all [Phase.inChunk, Phase.field]
    exact ⟨hfield.1, chunk.evt_length, fun hs => absurd hs hfield.2, fun _ => ⟨chunk.sigok, hle⟩⟩

theorem streamEvent_inv {s t : State} (h : s.Inv) (hr : s.ph ≠ .idle) (he : streamEvent s = .next t) : t.Inv := by
  obtain ⟨-, rfl⟩ | ⟨b, rest, -, hb⟩ := streamEvent_cases he
  · exact onEos_inv h hr
  · exact onByte_inv (h.setSrc_setInputs rest s.inputs) hb

/-! ## Every step keeps the invariant -/

/-- The launch of a run whose table is built. -/
theorem launch_inv {s : State} (h : s.Inv) (hv : s.tblValid = true) : s.launch.Inv :=
  inv_of_run (ph := .sig) rfl ⟨hv, h.table_built hv, rfl, holdsIndex_zero _, nofun, nofun⟩ ⟨rfl, rfl, rfl⟩

theorem exec_command_inv {w : BitVec 11} {s t : State} (h : s.Inv) (hx : exec (decodeCommand w) s = .next t) : t.Inv := by
  obtain same | ⟨-, hv, rfl⟩ := exec_command_sameRun hx
  · have hp := (exec_command_cases hx).1
    refine h.of_sameRun hp same fun hv => ?_
    obtain ⟨htbl, hvalid⟩ | ⟨-, htbl, -⟩ := exec_command_table hx
    · rw [htbl]; exact h.table_built (hvalid ▸ hv)
    · exact htbl
  · exact launch_inv h hv

/-- Settles O51: a reset block has no table, no trace and no result. -/
theorem invariantHoldsAtReset : Obligations.InvariantHoldsAtReset := applyReset_inv State.reset

/-- Settles O52, case by case of what a step can be. -/
theorem everyStepKeepsTheInvariant : Obligations.EveryStepKeepsTheInvariant := by
  intro s t h hs
  obtain ⟨-, bytes, inputs, rfl⟩ | ⟨hp, inputs, he⟩ | ⟨w, rest, -, -, hx⟩ | ⟨rest, -, rfl⟩ :=
    step_idle_event_command_reset hs
  · exact h.setSrc_setInputs bytes inputs
  · exact streamEvent_inv (h.setSrc_setInputs s.src inputs) hp he
  · exact exec_command_inv (h.setSrc_setInputs s.src rest) hx
  · exact applyReset_inv _

/-- Settles O1: the listed values, and with TBL_VALID = 0 the idle block refuses to show an entry. -/
theorem resetLeavesTheListedValues : Obligations.ResetLeavesTheListedValues := by
  refine ⟨rfl, rfl, rfl, rfl, rfl, rfl, rfl, rfl, rfl, fun i => ?_⟩
  exact (whenIdle_of_idle (s := State.reset) _ rfl).trans (whenTable_of_invalid (s := State.reset) _ rfl)

end Sys2Proof.Machine

/-! The byte source (spec/20_memory.md): reads of several bytes, and where the block takes its command words. -/

namespace Sys2Proof.Machine

/-! ## A read of several bytes (spec/20_memory.md R42) -/

theorem srcRead_of_le {n : Nat} {bs : List Byte} (h : n ≤ bs.length) :
    srcRead n bs = .bytes (bs.take n) (bs.drop n) := if_pos h

theorem srcRead_of_lt {n : Nat} {bs : List Byte} (h : bs.length < n) : srcRead n bs = .fail [] :=
  if_neg (Nat.not_le.2 h)

/-- A single read at the end of the source stops the sequence. -/
theorem srcNexts_succ_of_nil {n : Nat} {s : State} (h : s.src = []) : srcNexts (n + 1) s = (none, s) := by
  simp [srcNexts, srcNext_of_nil h]

/-- A single read that finds a byte puts it before what the other reads give. -/
theorem srcNexts_succ_of_cons {n : Nat} {s t : State} {b : Byte} {rest : List Byte} {r : Option (List Byte)}
    (h : s.src = b :: rest) (hn : srcNexts n (s.setSrc rest).advance = (r, t)) :
    srcNexts (n + 1) s = (r.map (b :: ·), t) := by
  cases r <;> simp [srcNexts, srcNext_of_cons h, hn]

/-- The state with `n` bytes of the source consumed and counted. -/
def State.consume (s : State) (n : Nat) : State := { s with src := s.src.drop n, pos := s.pos + n }

/-- Consuming every byte that is left. -/
theorem State.consume_length (s : State) :
    s.consume s.src.length = { s with src := [], pos := s.pos + s.src.length } := by simp [State.consume]

/-- Consuming the first byte and then `n` more is consuming `n + 1`. -/
theorem State.consume_succ_of_cons {s : State} {b : Byte} {rest : List Byte} (h : s.src = b :: rest) (n : Nat) :
    (s.setSrc rest).advance.consume n = s.consume (n + 1) := by
  simp [State.consume, State.advance, State.setSrc, h, Nat.add_assoc, Nat.add_comm 1 n]

theorem srcNexts_of_le {n : Nat} {s : State} (h : n ≤ s.src.length) :
    srcNexts n s = (some (s.src.take n), s.consume n) := by
  induction n generalizing s with
  | zero => rfl
  | succ n ih =>
    obtain ⟨b, rest, hs⟩ := List.exists_cons_of_length_pos (Nat.lt_of_lt_of_le n.succ_pos h)
    have hr : n ≤ (s.setSrc rest).advance.src.length := by simpa [hs] using h
    rw [srcNexts_succ_of_cons hs (ih hr), State.consume_succ_of_cons hs, hs]
    simp

theorem srcNexts_of_lt {n : Nat} {s : State} (h : s.src.length < n) :
    srcNexts n s = (none, s.consume s.src.length) := by
  induction n generalizing s with
  | zero => exact absurd h (Nat.not_lt_zero _)
  | succ n ih =>
    cases hs : s.src with
    | nil => exact srcNexts_succ_of_nil hs
    | cons b rest =>
      have hr : (s.setSrc rest).advance.src.length < n := by simpa [hs] using h
      rw [srcNexts_succ_of_cons hs (ih hr), State.consume_succ_of_cons hs]
      simp

/-- Settles O46, by induction on the number of single reads: each takes the next byte, or stops at the end of the source. -/
theorem readOfNBytesIsNSingleReads : Obligations.ReadOfNBytesIsNSingleReads := by
  intro n s
  refine ⟨fun h => ⟨srcRead_of_le h, srcNexts_of_le h⟩, fun h => ⟨srcRead_of_lt h, ?_⟩⟩
  rw [srcNexts_of_lt h, State.consume_length]

/-! ## A command word (spec/20_memory.md R54) -/

/-- Settles O42: an idle block takes the command word that the host offers next, and runs it. -/
theorem stepRunsTheDecodedCommand : Obligations.StepRunsTheDecodedCommand :=
  fun _ _ _ hp hi => step_command hp hi

end Sys2Proof.Machine

/-! The encoding (spec/30_encoding.md): the command words, the records of the stream, and the steps over a record's bytes. -/

namespace Sys2Proof.Machine

/-! ## Command words (R61 to R64) -/

@[simp] theorem decodeCommand_op0 (arg : Byte) : decodeCommand (cmdWord 0#3 arg) = .build := by
  simp [decodeCommand, cmdOp_cmdWord]

@[simp] theorem decodeCommand_op1 (arg : Byte) : decodeCommand (cmdWord 1#3 arg) = .tblrd arg := by
  simp [decodeCommand, cmdOp_cmdWord, cmdArg_cmdWord]

@[simp] theorem decodeCommand_op2 (arg : Byte) : decodeCommand (cmdWord 2#3 arg) = .crcinit := by
  simp [decodeCommand, cmdOp_cmdWord]

@[simp] theorem decodeCommand_op3 (arg : Byte) : decodeCommand (cmdWord 3#3 arg) = .crcbyte arg := by
  simp [decodeCommand, cmdOp_cmdWord, cmdArg_cmdWord]

@[simp] theorem decodeCommand_op4 (arg : Byte) : decodeCommand (cmdWord 4#3 arg) = .crcfin := by
  simp [decodeCommand, cmdOp_cmdWord]

@[simp] theorem decodeCommand_op5 (arg : Byte) : decodeCommand (cmdWord 5#3 arg) = .validate := by
  simp [decodeCommand, cmdOp_cmdWord]

@[simp] theorem decodeCommand_op6 (arg : Byte) : decodeCommand (cmdWord 6#3 arg) = .reserved6 := by
  simp [decodeCommand, cmdOp_cmdWord]

@[simp] theorem decodeCommand_op7 (arg : Byte) : decodeCommand (cmdWord 7#3 arg) = .reserved7 := by
  simp [decodeCommand, cmdOp_cmdWord]

theorem cmdWord_cmdOp_cmdArg (w : BitVec 11) : cmdWord (cmdOp w) (cmdArg w) = w :=
  (BitVec.extractLsb'_append_extractLsb'_eq_extractLsb' rfl).trans BitVec.extractLsb'_eq_self

theorem exists_eq_cmdWord (w : BitVec 11) : ∃ op arg, w = cmdWord op arg := ⟨_, _, (cmdWord_cmdOp_cmdArg w).symm⟩

theorem op_cases (op : BitVec 3) :
    op = 0#3 ∨ op = 1#3 ∨ op = 2#3 ∨ op = 3#3 ∨ op = 4#3 ∨ op = 5#3 ∨ op = 6#3 ∨ op = 7#3 := by
  revert op; decide

theorem cmdOp_toNat (w : BitVec 11) : (cmdOp w).toNat = w.toNat / 256 := by
  have := w.isLt
  simp [cmdOp, Nat.shiftRight_eq_div_pow]
  omega

theorem cmdArg_toNat (w : BitVec 11) : (cmdArg w).toNat = w.toNat % 256 := by simp [cmdArg]

theorem cmdArg_eq_setWidth (w : BitVec 11) : cmdArg w = w.setWidth 8 := (BitVec.setWidth_eq_extractLsb' (by decide)).symm

/-- Settles O18: under the mask a word is the word of its opcode with `arg` 0, which names its row. -/
theorem commandRowsFollowTheOpcodeMap : Obligations.CommandRowsFollowTheOpcodeMap := by
  intro w
  obtain ⟨op, arg, rfl⟩ := exists_eq_cmdWord w
  rw [← cmdArg_eq_setWidth, cmdArg_cmdWord, Laws.MatchesRow.cmdWord_under_mask]
  obtain rfl | rfl | rfl | rfl | rfl | rfl | rfl | rfl := op_cases op <;> simp <;> decide

/-- Settles O19: what stands behind the acceptance test of the two reserved rows is itself a refusal. -/
theorem reservedOpcodesAreRefused : Obligations.ReservedOpcodesAreRefused := by
  intro arg s
  exact ⟨decodeCommand_op6 arg, decodeCommand_op7 arg, fun hp => ⟨whenIdle_of_idle _ hp, whenIdle_of_idle _ hp⟩,
    fun hp => ⟨whenIdle_of_busy _ hp, whenIdle_of_busy _ hp⟩⟩

/-- Settles O20, from the row of each opcode. -/
theorem argIsIgnoredWithoutAnOperand : Obligations.ArgIsIgnoredWithoutAnOperand := by
  intro a b
  exact ⟨by simp, decodeCommand_op1 a, decodeCommand_op3 a⟩

/-! ## The words the block accepts (R61) -/

/-- Nothing faults: an instruction is accepted or refused. -/
theorem exec_next_or_refused (i : Instr) (s : State) : (∃ t, exec i s = .next t) ∨ ∃ r, exec i s = .refused r := by
  cases h : exec i s with
  | next t => exact .inl ⟨t, rfl⟩
  | fault f => cases f
  | refused r => exact .inr ⟨r, rfl⟩

theorem cmdReady_of_next {s t : State} {w : BitVec 11} (h : exec (decodeCommand w) s = .next t) : s.cmdReady w = true := by
  obtain ⟨hp, ⟨hd, -⟩ | ⟨i, hd, hv, -⟩ | ⟨hd, -⟩ | ⟨b, hd, hv, hw, -⟩ | ⟨hd, hw, -⟩ | ⟨hd, hv, -⟩⟩ := exec_command_cases h
  · simp [State.cmdReady, hp, hd]
  · simp [State.cmdReady, hp, hd, hv]
  · simp [State.cmdReady, hp, hd]
  · simp [State.cmdReady, hp, hd, hv, hw]
  · simp [State.cmdReady, hp, hd, hw]
  · simp [State.cmdReady, hp, hd, hv]

theorem next_of_cmdReady {s : State} {w : BitVec 11} (h : s.cmdReady w = true) :
    ∃ t, exec (decodeCommand w) s = .next t := by
  simp only [State.cmdReady, Bool.and_eq_true, Bool.not_eq_true', State.busy_eq_false_iff] at h
  obtain ⟨hp, h⟩ := h
  cases hd : decodeCommand w <;> simp only [hd] at h
  case build => exact ⟨_, whenIdle_of_idle _ hp⟩
  case tblrd i => exact ⟨_, (whenIdle_of_idle _ hp).trans (whenTable_of_valid _ h)⟩
  case crcinit => exact ⟨_, whenIdle_of_idle _ hp⟩
  case crcbyte b =>
    obtain ⟨hv, hw⟩ := Bool.and_eq_true_iff.1 h
    exact ⟨_, (whenIdle_of_idle _ hp).trans ((whenTable_of_valid _ hv).trans (whenCrcWritten_of_written _ hw))⟩
  case crcfin => exact ⟨_, (whenIdle_of_idle _ hp).trans (whenCrcWritten_of_written _ h)⟩
  case validate => exact ⟨_, (whenIdle_of_idle _ hp).trans (whenTable_of_valid _ h)⟩
  all_goals cases h

/-- Settles O59: `cmd_ready` is the acceptance test of the decoded row, and what is not accepted is refused. -/
theorem cmdReadyExactlyWhenAccepted : Obligations.CmdReadyExactlyWhenAccepted := by
  intro s w
  have ready : s.cmdReady w = true ↔ ∃ t, exec (decodeCommand w) s = .next t :=
    ⟨next_of_cmdReady, fun ⟨_, h⟩ => cmdReady_of_next h⟩
  refine ⟨cmdOp_toNat w, cmdArg_toNat w, cmdWord_cmdOp_cmdArg w, ready, ?_⟩
  rw [← Bool.not_eq_true, ready]
  refine ⟨(exec_next_or_refused _ s).resolve_left, ?_⟩
  rintro ⟨r, hr⟩ ⟨t, ht⟩
  cases hr.symm.trans ht

/-! ## A big-endian field (R67) -/

theorem shiftin_four (r : Word) (b0 b1 b2 b3 : Byte) :
    shiftin 3 (shiftin 2 (shiftin 1 (shiftin 0 r b0) b1) b2) b3 = be32 b0 b1 b2 b3 := by
  simp [shiftin, be32, BitVec.shiftLeft_or_distrib]

theorem be32_eq_append (b0 b1 b2 b3 : Byte) : be32 b0 b1 b2 b3 = b0 ++ b1 ++ b2 ++ b3 := by
  ext i hi
  grind [be32, zext32]

theorem be32_toNat (b0 b1 b2 b3 : Byte) :
    (be32 b0 b1 b2 b3).toNat = b0.toNat * 2 ^ 24 + b1.toNat * 2 ^ 16 + b2.toNat * 2 ^ 8 + b3.toNat := by
  have append (a : Nat) (b : Byte) : a <<< 8 ||| b.toNat = a * 2 ^ 8 + b.toNat := by
    rw [← Nat.shiftLeft_add_eq_or_of_lt b.isLt, Nat.shiftLeft_eq]
  simp only [be32_eq_append, BitVec.toNat_append, append]
  omega

/-- Settles O21: the first byte replaces what the register held, and four bytes one after the other are the value in base
256. -/
theorem shiftinAssemblesBigEndian : Obligations.ShiftinAssemblesBigEndian :=
  fun r b0 b1 b2 b3 => ⟨shiftin_four r b0 b1 b2 b3, be32_toNat b0 b1 b2 b3, rfl, rfl⟩

/-! ## Records: decoding and encoding (R65 to R70) -/

theorem decodeSig_signatureBytes (rest : List Byte) : decodeSig (signatureBytes ++ rest) = .record .sig rest := by
  have h : splitBytes 8 (signatureBytes ++ rest) = some (signatureBytes, rest) := splitBytes_append rest rfl
  simp [decodeSig, h]

theorem decodeSig_eq_record {bs rest : List Byte} {i : Instr} (h : decodeSig bs = .record i rest) :
    i = .sig ∧ bs = signatureBytes ++ rest := by
  unfold decodeSig at h
  split at h
  next => cases h
  next r rest' hr =>
    obtain ⟨rfl, -⟩ := splitBytes_eq_some hr
    split at h
    next hsig => cases h; exact ⟨rfl, by rw [hsig]⟩
    next => cases h

/-- The instruction of a chunk record: its type field selects the row (R69). -/
def chunkInstr (p : Params) (length typ : Word) (data : List Byte) (stored : Word) : Instr :=
  if typ = p.terminator then .chunkTerm length data stored else .chunk length typ data stored

theorem chunkInstr_terminator (p : Params) (length : Word) (data : List Byte) (stored : Word) :
    chunkInstr p length p.terminator data stored = .chunkTerm length data stored := if_pos rfl

theorem chunkInstr_generic {p : Params} {typ : Word} (ht : typ ≠ p.terminator) (length : Word) (data : List Byte)
    (stored : Word) : chunkInstr p length typ data stored = .chunk length typ data stored := if_neg ht

theorem chunkInstr_wf (p : Params) {length : Word} (typ : Word) {data : List Byte} (stored : Word)
    (hd : data.length = length.toNat) : (chunkInstr p length typ data stored).wf p = true := by
  by_cases ht : typ = p.terminator <;> simp [chunkInstr, ht, Instr.wf, lengthAgrees, hd]

theorem encode_chunkInstr (p : Params) (length typ : Word) (data : List Byte) (stored : Word) :
    encode p (chunkInstr p length typ data stored) = .record (chunkBytes length typ data stored) := by
  by_cases ht : typ = p.terminator <;> simp [chunkInstr, ht, encode]

theorem decodeChunk_of_fields (p : Params) {bs l bs1 t bs2 d bs3 c rest : List Byte}
    (hl : splitBytes 4 bs = some (l, bs1)) (ht : splitBytes 4 bs1 = some (t, bs2))
    (hd : splitBytes (be32Of l).toNat bs2 = some (d, bs3)) (hc : splitBytes 4 bs3 = some (c, rest)) :
    decodeChunk p bs = .record (chunkInstr p (be32Of l) (be32Of t) d (be32Of c)) rest := by
  simp [decodeChunk, hl, ht, hd, hc, chunkInstr, apply_ite (Decoded.record · rest)]

theorem decodeChunk_chunkBytes (p : Params) {length : Word} (typ : Word) {data : List Byte} (stored : Word)
    (rest : List Byte) (hd : data.length = length.toNat) :
    decodeChunk p (chunkBytes length typ data stored ++ rest) = .record (chunkInstr p length typ data stored) rest := by
  have h := decodeChunk_of_fields p
    (splitBytes_append (a := be32Bytes length) (be32Bytes typ ++ (data ++ (be32Bytes stored ++ rest))) rfl)
    (splitBytes_append _ rfl) (splitBytes_append _ (by simpa using hd)) (splitBytes_append _ rfl)
  simpa [chunkBytes] using h

theorem decodeChunk_eq_record {p : Params} {bs rest : List Byte} {i : Instr} (h : decodeChunk p bs = .record i rest) :
    ∃ length typ data stored, data.length = length.toNat ∧ bs = chunkBytes length typ data stored ++ rest ∧
      i = chunkInstr p length typ data stored := by
  unfold decodeChunk at h
  split at h
  next => cases h
  next l bs1 hl =>
  split at h
  next => cases h
  next t bs2 ht =>
  split at h
  next => cases h
  next d bs3 hd =>
  split at h
  next => cases h
  next c bs4 hc =>
  obtain ⟨rfl, llen⟩ := splitBytes_eq_some hl
  obtain ⟨rfl, tlen⟩ := splitBytes_eq_some ht
  obtain ⟨rfl, dlen⟩ := splitBytes_eq_some hd
  obtain ⟨rfl, clen⟩ := splitBytes_eq_some hc
  rw [← apply_ite (Decoded.record · bs4)] at h
  cases h
  refine ⟨be32Of l, be32Of t, d, be32Of c, dlen, ?_, rfl⟩
  simp [chunkBytes, be32Bytes_be32Of llen, be32Bytes_be32Of tlen, be32Bytes_be32Of clen]

/-- Settles O23: each command's word is of its row, and each record's fields are found one after the other. -/
theorem decodeReturnsWhatWasEncoded : Obligations.DecodeReturnsWhatWasEncoded := by
  intro p i hwf
  cases i
  case build => exact .inl ⟨_, rfl, decodeCommand_op0 _⟩
  case tblrd n => exact .inl ⟨_, rfl, decodeCommand_op1 n⟩
  case crcinit => exact .inl ⟨_, rfl, decodeCommand_op2 _⟩
  case crcbyte b => exact .inl ⟨_, rfl, decodeCommand_op3 b⟩
  case crcfin => exact .inl ⟨_, rfl, decodeCommand_op4 _⟩
  case validate => exact .inl ⟨_, rfl, decodeCommand_op5 _⟩
  case reserved6 => exact .inl ⟨_, rfl, decodeCommand_op6 _⟩
  case reserved7 => exact .inl ⟨_, rfl, decodeCommand_op7 _⟩
  case sig => exact .inr ⟨_, rfl, decodeSig_signatureBytes⟩
  case chunk length typ data stored =>
    simp only [Instr.wf, lengthAgrees, Bool.and_eq_true, beq_iff_eq, bne_iff_ne] at hwf
    obtain ⟨hd, ht⟩ := hwf
    rw [← chunkInstr_generic ht]
    exact .inr ⟨_, encode_chunkInstr .., fun rest => by
      simpa [chunkInstr_generic ht, decodeRecord] using decodeChunk_chunkBytes p typ stored rest hd⟩
  case chunkTerm length data stored =>
    simp only [Instr.wf, lengthAgrees, beq_iff_eq] at hwf
    rw [← chunkInstr_terminator]
    exact .inr ⟨_, encode_chunkInstr .., fun rest => by
      simpa [chunkInstr_terminator, decodeRecord] using decodeChunk_chunkBytes p p.terminator stored rest hwf⟩

/-- Settles O24: the bytes of each field are those of the word read from them; a command word is its opcode's row. -/
theorem encodeReturnsWhatWasDecoded : Obligations.EncodeReturnsWhatWasDecoded := by
  refine ⟨fun p first bs rest i h => ?_, fun p w => ?_⟩
  · cases first
    · obtain ⟨length, typ, data, stored, hd, hbs, rfl⟩ := decodeChunk_eq_record h
      exact ⟨chunkInstr_wf p typ stored hd, _, encode_chunkInstr p length typ data stored, hbs⟩
    · obtain ⟨rfl, hbs⟩ := decodeSig_eq_record h
      exact ⟨rfl, _, rfl, hbs⟩
  · obtain ⟨op, arg, rfl⟩ := exists_eq_cmdWord w
    obtain rfl | rfl | rfl | rfl | rfl | rfl | rfl | rfl := op_cases op <;>
      simp [encode, cmdOp_cmdWord, cmdArg_cmdWord]

/-- A field that begins at offset `m` and is complete. -/
theorem splitBytes_drop_long {n m : Nat} {bs : List Byte} (h : m + n ≤ bs.length) :
    splitBytes n (bs.drop m) = some ((bs.drop m).take n, bs.drop (m + n)) := by
  rw [splitBytes_long (by simp; omega), List.drop_drop]

/-- A field that begins at offset `m` and in which the bytes end. -/
theorem splitBytes_drop_short {n m : Nat} {bs : List Byte} (hm : m ≤ bs.length) (h : bs.length < m + n) :
    splitBytes n (bs.drop m) = none := splitBytes_short (by simp; omega)

/-- Settles O25: the fields before the first incomplete one split off, each at its offset. -/
theorem illFormedRecordsAreRejectedByName : Obligations.IllFormedRecordsAreRejectedByName := by
  refine ⟨fun bs h => ?sigShort, fun bs h hs => ?sigWrong, fun bs h hs => ?sigRight, fun p bs h => ?length,
    fun p bs h4 h => ?typ, fun p bs h8 h => ?data, fun p bs h8 h => ?crc, fun p bs h => ?whole⟩
  case sigShort => simp [decodeSig, splitBytes_short h]
  case sigWrong => simp [decodeSig, splitBytes_long h, hs]
  case sigRight => simp [decodeSig, splitBytes_long h, hs]
  case length => simp [decodeChunk, splitBytes_short h]
  case typ => simp [decodeChunk, splitBytes_long h4, splitBytes_drop_short (n := 4) h4 h]
  case data =>
    have hl := splitBytes_long (n := 4) (bs := bs) (by omega)
    have ht := splitBytes_drop_long (n := 4) (m := 4) h8
    simp [decodeChunk, hl, ht, splitBytes_drop_short h8 h]
  case crc =>
    have hl := splitBytes_long (n := 4) (bs := bs) (by omega)
    have ht := splitBytes_drop_long (n := 4) (m := 4) (bs := bs) (by omega)
    simp [decodeChunk, hl, ht, splitBytes_drop_long h8, splitBytes_drop_short (n := 4) h8 (by omega)]
  case whole =>
    have hl := splitBytes_long (n := 4) (bs := bs) (by omega)
    have ht := splitBytes_drop_long (n := 4) (m := 4) (bs := bs) (by omega)
    have hd := splitBytes_drop_long (n := (be32Of (bs.take 4)).toNat) (m := 8) (bs := bs) (by omega)
    have hc := splitBytes_drop_long (n := 4) (m := 8 + (be32Of (bs.take 4)).toNat) (bs := bs) (by omega)
    rw [show 8 + (be32Of (bs.take 4)).toNat + 4 = 12 + (be32Of (bs.take 4)).toNat by omega] at hc
    exact ⟨_, decodeChunk_of_fields p hl ht hd hc⟩

/-- Settles O22, by running the decoder on the written-out words and bytes. -/
theorem writtenOutEncodingsDecode : Obligations.WrittenOutEncodingsDecode := by
  unfold Obligations.WrittenOutEncodingsDecode
  decide

/-- Settles O26, code by code. -/
theorem resultCodesAsListed : Obligations.ResultCodesAsListed := by
  refine ⟨rfl, rfl, rfl, rfl, rfl, rfl, rfl, rfl, rfl, rfl, fun f => ?_, rfl, rfl, rfl, rfl, rfl⟩
  cases f <;> decide

/-! ## Records: where their terms run (R60) -/

theorem exec_sig_of_atRecord {s : State} (hp : s.ph = .sig) (hk : s.k = 0#3) : exec .sig s = feed signatureBytes s :=
  if_pos ((s.atRecord_iff _).2 ⟨hp, hk⟩)

/-- A term that a chunk record decodes to runs the record's bytes, whichever row its type selects. -/
theorem exec_chunkInstr {s : State} {length : Word} (typ : Word) {data : List Byte} (stored : Word) (hp : s.ph = .len)
    (hk : s.k = 0#3) (hd : data.length = length.toNat) :
    exec (chunkInstr s.params length typ data stored) s = feed (chunkBytes length typ data stored) s := by
  have at_record := (s.atRecord_iff _).2 ⟨hp, hk⟩
  have wf := chunkInstr_wf s.params typ stored hd
  by_cases ht : typ = s.params.terminator
  · subst ht
    rw [chunkInstr_terminator] at wf ⊢
    exact (if_pos at_record).trans (if_pos wf)
  · rw [chunkInstr_generic ht] at wf ⊢
    exact (if_pos at_record).trans (if_pos wf)

/-- Settles O41: the two tests before a record term's bytes, the place and then the term. -/
theorem recordsRunOnlyWhereTheyBegin : Obligations.RecordsRunOnlyWhereTheyBegin := by
  intro s length typ data stored
  refine ⟨fun h => ?_, fun h => ?_, fun hp hk hd => ?_, fun hp hk ht => ?_⟩
  · exact if_neg fun at_record => h ((s.atRecord_iff _).1 at_record)
  · have elsewhere : ¬ s.atRecord .len = true := fun at_record => h ((s.atRecord_iff _).1 at_record)
    exact ⟨if_neg elsewhere, if_neg elsewhere⟩
  · have at_record := (s.atRecord_iff _).2 ⟨hp, hk⟩
    exact ⟨(if_pos at_record).trans (if_neg (by simp [Instr.wf, lengthAgrees, hd])),
      (if_pos at_record).trans (if_neg (by simp [Instr.wf, lengthAgrees, hd]))⟩
  · have at_record := (s.atRecord_iff _).2 ⟨hp, hk⟩
    exact (if_pos at_record).trans (if_neg (by simp [Instr.wf, ht]))

/-! ## The signature field (R140) -/

/-- Any eight bytes at the start of the signature: they are all consumed, and SIGOK then decides. -/
theorem feed_signature_field {s : State} {r : List Byte} (hp : s.ph = .sig) (hk : s.k = 0#3) (hr : r.length = 8) :
    let s' := { s with pos := s.pos + 8, sigok := s.sigok && r == signatureBytes }
    feed r s = .next (if s'.sigok then { s' with ph := .len } else s'.terminate .notThisFormat .none) := by
  match r, hr with
  | [b0, b1, b2, b3, b4, b5, b6, b7], _ =>
    cases s
    subst hp hk
    simp [feed, feedByte, onByte, sigByte, State.sigokAfter, State.advance, State.setSigok, State.nextByte, State.enter,
      State.terminate, signatureByte, signatureBytes, Config.signature, Bool.and_assoc]

/-- Settles O35: the eight right bytes leave SIGOK as it was, which decides at the eighth. -/
theorem signatureRecordCompletes : Obligations.SignatureRecordCompletes := by
  intro s hp hk
  rw [exec_sig_of_atRecord hp hk, feed_signature_field hp hk rfl]
  cases s
  subst hp hk
  exact ⟨fun ho => by simp_all, fun ho => by simp_all [State.terminate]⟩

/-! ## The steps over a record's bytes -/

/-- An answer with the source of its state replaced. -/
def withSrc (bytes : List Byte) : Answer → Answer
  | .next s => .next (s.setSrc bytes)
  | .fault r => .fault r
  | .refused r => .refused r

/-! No step rule looks at the bytes that the source has left. -/

theorem sigByte_setSrc (b : Byte) (s : State) (bytes : List Byte) :
    sigByte b (s.setSrc bytes) = (sigByte b s).setSrc bytes := by
  simp only [sigByte, apply_ite (State.setSrc · bytes)]; rfl

theorem lenByte_setSrc (b : Byte) (s : State) (bytes : List Byte) :
    lenByte b (s.setSrc bytes) = (lenByte b s).setSrc bytes := by
  simp only [lenByte, apply_ite (State.setSrc · bytes)]; rfl

theorem typByte_setSrc (b : Byte) (s : State) (bytes : List Byte) :
    typByte b (s.setSrc bytes) = (typByte b s).setSrc bytes := by
  simp only [typByte, apply_ite (State.setSrc · bytes)]; rfl

theorem datByte_setSrc (b : Byte) (s : State) (bytes : List Byte) :
    datByte b (s.setSrc bytes) = (datByte b s).setSrc bytes := by
  simp only [datByte, apply_ite (State.setSrc · bytes)]; rfl

theorem finishChunk_setSrc (stored : Word) (s : State) (bytes : List Byte) :
    finishChunk stored (s.setSrc bytes) = withSrc bytes (finishChunk stored s) := by
  simp only [finishChunk, apply_ite (withSrc bytes)]; rfl

theorem scrByte_setSrc (b : Byte) (s : State) (bytes : List Byte) :
    scrByte b (s.setSrc bytes) = withSrc bytes (scrByte b s) := by
  simp only [scrByte, apply_ite (withSrc bytes), ← finishChunk_setSrc]; rfl

theorem feedByte_setSrc (b : Byte) (s : State) (bytes : List Byte) :
    feedByte b (s.setSrc bytes) = withSrc bytes (feedByte b s) := by
  cases hp : s.ph <;> simp only [feedByte, onByte, State.setSrc_ph, State.advance_ph, hp]
  case idle => rfl
  case sig => exact congrArg _ (sigByte_setSrc b s.advance bytes)
  case len => exact congrArg _ (lenByte_setSrc b s.advance bytes)
  case typ => exact congrArg _ (typByte_setSrc b s.advance bytes)
  case dat => exact congrArg _ (datByte_setSrc b s.advance bytes)
  case scr => exact scrByte_setSrc b s.advance bytes

theorem feedByte_of_idle {b : Byte} {s : State} (hp : s.ph = .idle) : feedByte b s = .refused .noRecordHere := by
  simp [feedByte, onByte, hp]

/-- A refused first step answers for them all. -/
theorem run_of_refused {M : Host.Core} {n : Nat} {s : M.State} {r : M.Refusal} (h : M.step s = .refused r) :
    M.run (n + 1) s = .refused r := by rw [Host.Core.run, h]

/-- As many steps as there are bytes at the front of the source feed these bytes, if the run is not over before the last of
them: a byte too many would be refused as no record. -/
theorem run_eq_feed {bs rest : List Byte} {s : State} (hi : s.inputs = [] ∨ ∃ w later, s.inputs = .command w :: later)
    (hs : s.src = bs ++ rest) (hr : feed bs (s.setSrc rest) ≠ .refused .noRecordHere) :
    Host.Core.run Sys2Proof.core bs.length s = feed bs (s.setSrc rest) := by
  induction bs generalizing s with
  | nil =>
    obtain rfl : s.src = rest := hs
    rfl
  | cons b bs ih =>
    have hp : s.ph ≠ .idle := fun hp => hr (feed_cons_of_refused (feedByte_of_idle hp))
    have hstep : step s = withSrc (bs ++ rest) (feedByte b (s.setSrc rest)) := by
      rw [step_of_busy hp hi, streamEvent_of_cons hs, ← feedByte_setSrc]
      rfl
    cases hb : feedByte b (s.setSrc rest) with
    | next t =>
      have around := feedByte_around hb
      have ht : (t.setSrc (bs ++ rest)).setSrc rest = t := by
        obtain rfl : t.src = rest := around.src
        rfl
      rw [hb] at hstep
      rw [feed_cons_of_next hb] at hr ⊢
      rw [List.length_cons, run_core_of_next hstep, ih (by simpa [around.inputs] using hi) rfl (by rwa [ht]), ht]
    | fault r => cases r
    | refused r =>
      rw [hb] at hstep
      rw [feed_cons_of_refused hb]
      exact run_of_refused (M := Sys2Proof.core) hstep

theorem finishChunk_ne_noRecordHere (stored : Word) (s : State) : finishChunk stored s ≠ .refused .noRecordHere := by
  obtain ⟨-, h⟩ | ⟨-, -, h⟩ | ⟨-, -, -, h⟩ | ⟨-, -, -, h⟩ := finishChunk_cases stored s <;> simp [h]

/-- Settles O44: a decoded record's term feeds the record's bytes, which no run's end cuts short, and so do the steps. -/
theorem stepsRunTheDecodedRecord : Obligations.StepsRunTheDecodedRecord := by
  intro s i rest hi hk hph hdec
  have steps {bs : List Byte} (hs : s.src = bs ++ rest) (hr : feed bs (s.setSrc rest) ≠ .refused .noRecordHere) :
      Host.Core.run Sys2Proof.core (s.src.length - rest.length) s = feed bs (s.setSrc rest) := by
    rw [← run_eq_feed hi hs hr, hs, List.length_append, Nat.add_sub_cancel]
  obtain hp | hp := hph <;> rw [hp] at hdec
  · obtain ⟨rfl, hs⟩ := decodeSig_eq_record hdec
    refine (steps hs ?_).trans (exec_sig_of_atRecord (s := s.setSrc rest) hp hk).symm
    rw [feed_signature_field (s := s.setSrc rest) hp hk rfl]
    nofun
  · obtain ⟨length, typ, data, stored, hd, hs, rfl⟩ := decodeChunk_eq_record hdec
    refine (steps hs ?_).trans (exec_chunkInstr (s := s.setSrc rest) typ stored hp hk hd).symm
    rw [feed_chunkBytes (s := s.setSrc rest) length typ data stored hp hk hd]
    exact finishChunk_ne_noRecordHere _ _

end Sys2Proof.Machine

/-! The functions of the CRC-32 engine (spec/40_crc_engine.md R100 to R104, R113, R114): the round is linear over XOR and loses
nothing, and so is the table; one update; the checksum. -/

namespace Sys2Proof.Machine

/-! ## The round (R101) -/

theorem crcRound_of_odd {a : Word} (h : a.getLsbD 0 = true) : crcRound a = (a >>> 1) ^^^ Config.poly := if_pos h

theorem crcRound_of_even {a : Word} (h : a.getLsbD 0 = false) : crcRound a = a >>> 1 :=
  if_neg (Bool.eq_false_iff.1 h)

/-- Settles O3, from the two cases of the low bit. -/
theorem roundTestsTheLowBitThenShifts : Obligations.RoundTestsTheLowBitThenShifts :=
  ⟨fun _ h => crcRound_of_odd h, fun _ h => crcRound_of_even h, by decide, by decide, by decide⟩

/-- The POLY terms of two odd words cancel, and their XOR is even. -/
theorem crcRound_xor (a b : Word) : crcRound (a ^^^ b) = crcRound a ^^^ crcRound b := by
  have low : (a ^^^ b).getLsbD 0 = (a.getLsbD 0 ^^ b.getLsbD 0) := BitVec.getLsbD_xor
  have shift : (a ^^^ b) >>> 1 = (a >>> 1) ^^^ (b >>> 1) := BitVec.ushiftRight_xor_distrib a b 1
  cases ha : a.getLsbD 0 <;> cases hb : b.getLsbD 0 <;> rw [ha, hb] at low
  case false.false => rw [crcRound_of_even ha, crcRound_of_even hb, crcRound_of_even low, shift]
  case false.true => rw [crcRound_of_even ha, crcRound_of_odd hb, crcRound_of_odd low, shift, BitVec.xor_assoc]
  case true.false =>
    rw [crcRound_of_odd ha, crcRound_of_even hb, crcRound_of_odd low, shift, BitVec.xor_assoc, BitVec.xor_assoc,
      BitVec.xor_comm (b >>> 1)]
  case true.true =>
    rw [crcRound_of_odd ha, crcRound_of_odd hb, crcRound_of_even low, shift, BitVec.xor_assoc,
      BitVec.xor_comm (b >>> 1), ← BitVec.xor_assoc Config.poly, BitVec.xor_self, BitVec.zero_xor]

/-- A shift leaves bit 31 at 0 and POLY has it, so that an odd word's round is not 0; and an even word's round loses no bit. -/
theorem eq_zero_of_crcRound_eq_zero {a : Word} (h : crcRound a = 0#32) : a = 0#32 := by
  cases ha : a.getLsbD 0 with
  | true =>
    rw [crcRound_of_odd ha] at h
    have top : ((a >>> 1) ^^^ Config.poly).getLsbD 31 = true := by simp [Config.poly]
    simp [h] at top
  | false =>
    rw [crcRound_of_even ha] at h
    have even : a.toNat % 2 = 0 := by simpa [BitVec.getLsbD] using ha
    have half : a.toNat / 2 = 0 := by simpa [Nat.shiftRight_eq_div_pow] using congrArg BitVec.toNat h
    exact BitVec.eq_of_toNat_eq (by simp; omega)

theorem crcRounds_xor (n : Nat) (a b : Word) : crcRounds n (a ^^^ b) = crcRounds n a ^^^ crcRounds n b := by
  induction n generalizing a b with
  | zero => rfl
  | succ n ih => simp only [crcRounds, crcRound_xor, ih]

theorem eq_zero_of_crcRounds_eq_zero {n : Nat} {a : Word} (h : crcRounds n a = 0#32) : a = 0#32 := by
  induction n generalizing a with
  | zero => exact h
  | succ n ih => exact eq_zero_of_crcRound_eq_zero (ih h)

/-! ## The table (R100, R113, R114) -/

theorem readTbl_buildTable (i : Byte) : readTbl buildTable i = tableEntry i := by simp [readTbl, buildTable]

/-- Settles O4: `ROUNDS` is eight. -/
theorem tableEntryIsEightRoundsOfItsIndex : Obligations.TableEntryIsEightRoundsOfItsIndex := readTbl_buildTable

/-- Settles O5: a closed fact, the 256 entries computed. -/
theorem tableIsTheListing : Obligations.TableIsTheListing := by
  unfold Obligations.TableIsTheListing
  decide +kernel

theorem zext32_xor (i j : Byte) : zext32 (i ^^^ j) = zext32 i ^^^ zext32 j := BitVec.setWidth_xor

theorem tableEntry_xor (i j : Byte) : tableEntry (i ^^^ j) = tableEntry i ^^^ tableEntry j := by
  rw [tableEntry, zext32_xor, crcRounds_xor]
  rfl

theorem eq_zero_of_tableEntry_eq_zero {i : Byte} (h : tableEntry i = 0#32) : i = 0#8 := by
  have hz : zext32 i = 0#32 := eq_zero_of_crcRounds_eq_zero h
  simpa [zext32] using congrArg (BitVec.setWidth 8) hz

/-- Equal entries have a zero XOR, which by linearity is the entry at the XOR of the indices. -/
theorem tableEntry_injective : Function.Injective tableEntry := by
  intro i j h
  have hz : tableEntry (i ^^^ j) = 0#32 := by rw [tableEntry_xor, h, BitVec.xor_self]
  exact BitVec.xor_eq_zero_iff.1 (eq_zero_of_tableEntry_eq_zero hz)

/-- Settles O6: linearity and distinctness come from those of the round, the listed entries from eight rounds each. -/
theorem tableIsLinearAndItsEntriesDiffer : Obligations.TableIsLinearAndItsEntriesDiffer := by
  unfold Obligations.TableIsLinearAndItsEntriesDiffer
  simp only [readTbl_buildTable]
  exact ⟨by decide, tableEntry_xor, by decide, by decide, by decide, by decide, by decide, by decide, by decide, by decide,
    fun _ _ h => tableEntry_injective h⟩

/-! ## One update and the checksum (R102, R103) -/

theorem tblIndex_toNat (c : Word) (b : Byte) : (tblIndex c b).toNat = ((c ^^^ zext32 b) &&& 0xFF#32).toNat := by
  have low : ((c ^^^ zext32 b) &&& 0xFF#32).toNat < 2 ^ 8 :=
    Nat.lt_of_le_of_lt (by rw [BitVec.toNat_and]; exact Nat.and_le_right) (by decide : (0xFF#32).toNat < 2 ^ 8)
  rw [tblIndex, BitVec.toNat_setWidth, Nat.mod_eq_of_lt low]

/-- The index of an update is the low byte of the running value XORed with the data byte. -/
theorem tblIndex_eq_lowByte_xor (c : Word) (b : Byte) : tblIndex c b = c.extractLsb' 0 8 ^^^ b := by
  have mask : (0xFF#32).setWidth 8 = BitVec.allOnes 8 := by decide
  have data : (zext32 b).setWidth 8 = b := by simp [zext32]
  rw [tblIndex, BitVec.setWidth_and, mask, BitVec.and_allOnes, BitVec.setWidth_xor, data,
    BitVec.setWidth_eq_extractLsb' (by decide)]

/-- Settles O7: the shifted word has nothing in its top byte. -/
theorem updateReadsOneEntry : Obligations.UpdateReadsOneEntry := by
  intro t c b
  refine ⟨fun h => ?_, ?_, ?_⟩
  · simp only [upd, readTbl, tblIndex_toNat]
  · rw [← tblIndex_toNat, tblIndex_eq_lowByte_xor]
  · have shifted : (c >>> 8).extractLsb' 24 8 = 0#8 := by
      ext i hi
      simpa using BitVec.getLsbD_of_ge c (8 + (24 + i)) (by omega)
    rw [upd, tblIndex_eq_lowByte_xor, BitVec.extractLsb'_xor, shifted, BitVec.xor_zero]

theorem checksum_nil (t : Vector Word 256) : checksum t [] = 0#32 := by simp [checksum, Config.init, Config.xorOut]

/-- The running value of a checksum (R102): XORed with XOROUT it is the fold. -/
theorem checksum_xor_xorOut (t : Vector Word 256) (bs : List Byte) :
    checksum t bs ^^^ Config.xorOut = bs.foldl (upd t) Config.init := by
  rw [checksum, BitVec.xor_assoc, BitVec.xor_self, BitVec.xor_zero]

theorem checksum_concat (t : Vector Word 256) (bs : List Byte) (b : Byte) :
    checksum t (bs ++ [b]) = upd t (checksum t bs ^^^ Config.xorOut) b ^^^ Config.xorOut := by
  rw [checksum_xor_xorOut, checksum, List.foldl_concat]

/-- Settles O8: the fold of one byte more at the end; and the check value, computed. -/
theorem checksumFoldsBytesInOrder : Obligations.ChecksumFoldsBytesInOrder :=
  ⟨checksum_nil, checksum_concat, by decide +kernel⟩

end Sys2Proof.Machine

/-! The commands of the CRC-32 engine (spec/40_crc_engine.md R105 to R112), and the sequences of them that give a checksum. -/

namespace Sys2Proof.Machine

/-! ## What an accepted command answers -/

theorem exec_build_of_idle {s : State} (hp : s.ph = .idle) : exec .build s = .next s.buildTbl := whenIdle_of_idle _ hp

theorem exec_tblrd_of_valid {s : State} (i : Byte) (hp : s.ph = .idle) (hv : s.tblValid = true) :
    exec (.tblrd i) s = .next (s.setTdat (readTbl s.tbl i)) :=
  (whenIdle_of_idle _ hp).trans (whenTable_of_valid _ hv)

theorem exec_crcinit_of_idle {s : State} (hp : s.ph = .idle) : exec .crcinit s = .next (s.setCrc Config.init) :=
  whenIdle_of_idle _ hp

theorem exec_crcbyte_of_ready {s : State} (b : Byte) (hp : s.ph = .idle) (hv : s.tblValid = true)
    (hw : s.written.crc = true) : exec (.crcbyte b) s = .next (s.foldByte b) :=
  (whenIdle_of_idle _ hp).trans ((whenTable_of_valid _ hv).trans (whenCrcWritten_of_written _ hw))

theorem exec_crcfin_of_written {s : State} (hp : s.ph = .idle) (hw : s.written.crc = true) :
    exec .crcfin s = .next (s.setCcrc (s.crc ^^^ Config.xorOut)) :=
  (whenIdle_of_idle _ hp).trans (whenCrcWritten_of_written _ hw)

/-! ## BUILD (R105) -/

/-- On a built table BUILD changes nothing. -/
theorem buildTbl_of_built {s : State} (hv : s.tblValid = true) (ht : s.tbl = buildTable) : s.buildTbl = s := by
  rw [State.buildTbl, ← hv, ← ht]

/-- An accepted instruction is a command word, or feeds the bytes of a record. -/
theorem command_or_feed_of_next {i : Instr} {s t : State} (h : exec i s = .next t) :
    (∃ w, decodeCommand w = i) ∨ ∃ bs, feed bs s = .next t := by
  cases i with
  | build => exact .inl ⟨_, decodeCommand_op0 0⟩
  | tblrd i => exact .inl ⟨_, decodeCommand_op1 i⟩
  | crcinit => exact .inl ⟨_, decodeCommand_op2 0⟩
  | crcbyte b => exact .inl ⟨_, decodeCommand_op3 b⟩
  | crcfin => exact .inl ⟨_, decodeCommand_op4 0⟩
  | validate => exact .inl ⟨_, decodeCommand_op5 0⟩
  | reserved6 => exact .inl ⟨_, decodeCommand_op6 0⟩
  | reserved7 => exact .inl ⟨_, decodeCommand_op7 0⟩
  | sig =>
    simp only [exec, execSig] at h
    split at h
    · exact .inr ⟨_, h⟩
    · cases h
  | chunk length typ data stored =>
    simp only [exec, execChunk] at h
    split at h
    · split at h
      · exact .inr ⟨_, h⟩
      · cases h
    · cases h
  | chunkTerm length data stored =>
    simp only [exec, execChunkTerm] at h
    split at h
    · split at h
      · exact .inr ⟨_, h⟩
      · cases h
    · cases h

/-- Only BUILD writes the table. -/
theorem exec_keeps_table {i : Instr} {s t : State} (hi : i ≠ .build) (h : exec i s = .next t) :
    t.tbl = s.tbl ∧ t.tblValid = s.tblValid := by
  obtain ⟨w, rfl⟩ | ⟨bs, hf⟩ := command_or_feed_of_next h
  · exact (exec_command_table h).resolve_right fun built => hi built.1
  · have around := feed_around hf
    exact ⟨around.tbl, around.tblValid⟩

/-- Settles O10: the acceptance test and the effect of BUILD, and what every other instruction keeps. -/
theorem buildFillsTheTableInOneStep : Obligations.BuildFillsTheTableInOneStep := by
  unfold Obligations.BuildFillsTheTableInOneStep
  simp only [readTbl_buildTable]
  refine ⟨decodeCommand_op0, fun s hp => whenIdle_of_busy _ hp, fun s hp => exec_build_of_idle hp, fun s hp hv ht => ?_,
    fun i s t => exec_keeps_table, by decide, by decide, by decide, by decide⟩
  rw [exec_build_of_idle hp, buildTbl_of_built hv ht]

/-! ## TBLRD, CRCINIT, CRCBYTE, CRCFIN (R106 to R109) -/

/-- Settles O11: the two acceptance tests of TBLRD, then its effect. -/
theorem tblrdReadsOneEntry : Obligations.TblrdReadsOneEntry := by
  refine ⟨decodeCommand_op1, fun s i hp => whenIdle_of_busy _ hp,
    fun s i hp hv => (whenIdle_of_idle _ hp).trans (whenTable_of_invalid _ hv), fun s i => exec_tblrd_of_valid i, ?_⟩
  rw [readTbl_buildTable]
  decide

/-- Settles O12: CRCINIT has one acceptance test, and it is not the table's. -/
theorem crcinitStartsAChecksum : Obligations.CrcinitStartsAChecksum :=
  ⟨decodeCommand_op2, fun _ hp => whenIdle_of_busy _ hp, fun _ hp => exec_crcinit_of_idle hp⟩

/-- A byte folded into a CRC that was written leaves the written bits as they are. -/
theorem foldByte_of_written {s : State} (b : Byte) (hw : s.written.crc = true) :
    s.foldByte b = { s with crc := upd s.tbl s.crc b } := by
  have bits : { s.written with crc := true } = s.written := by rw [← hw]
  rw [State.foldByte, State.setCrc, bits]

/-- Settles O13: the three acceptance tests of CRCBYTE in order, then its effect. -/
theorem crcbyteFoldsOneByte : Obligations.CrcbyteFoldsOneByte := by
  refine ⟨decodeCommand_op3, fun s b hp => whenIdle_of_busy _ hp,
    fun s b hp hv => (whenIdle_of_idle _ hp).trans (whenTable_of_invalid _ hv),
    fun s b hp hv hw => (whenIdle_of_idle _ hp).trans ((whenTable_of_valid _ hv).trans (whenCrcWritten_of_unwritten _ hw)),
    fun s b hp hv hw => ?_, ?_, ?_⟩
  · rw [exec_crcbyte_of_ready b hp hv hw, foldByte_of_written b hw]
  · rw [upd, readTbl_buildTable]; decide
  · rw [upd, readTbl_buildTable]; decide

/-- Settles O14: the two acceptance tests of CRCFIN, neither the table's, then its effect. -/
theorem crcfinFinishesAChecksum : Obligations.CrcfinFinishesAChecksum :=
  ⟨decodeCommand_op4, fun _ hp => whenIdle_of_busy _ hp,
    fun _ hp hw => (whenIdle_of_idle _ hp).trans (whenCrcWritten_of_unwritten _ hw),
    fun _ hp hw => exec_crcfin_of_written hp hw, by decide⟩

/-! ## The checksum of a byte sequence by commands (R111, R112) -/

/-- The host's actions that offer one CRCBYTE a byte. -/
def offerBytes (bs : List Byte) : List Input := bs.map fun b => .command (cmdWord 3#3 b)

/-- The expansion of `CRC <bytes>` as the host offers it (R77). -/
theorem offer_crcExpansion (p : Params) (bs : List Byte) :
    offer p (crcExpansion bs) = .command (cmdWord 2#3 0) :: (offerBytes bs ++ [.command (cmdWord 4#3 0)]) := by
  have each : offer p (bs.map .crcbyte) = offerBytes bs := by
    induction bs with
    | nil => rfl
    | cons b bs ih => exact congrArg (Input.command (cmdWord 3#3 b) :: ·) ih
  rw [← each]
  exact congrArg (Input.command (cmdWord 2#3 0) :: ·) List.filterMap_append

/-- A command that is offered to an idle block and accepted is the first of several steps. -/
theorem run_command {n : Nat} {s t : State} {w : BitVec 11} {i : Instr} {rest : List Input} (hp : s.ph = .idle)
    (hi : s.inputs = .command w :: rest) (hd : decodeCommand w = i) (hx : exec i (s.setInputs rest) = .next t) :
    Host.Core.run Sys2Proof.core (n + 1) s = Host.Core.run Sys2Proof.core n t :=
  run_core_of_next ((step_command hp hi).trans (hd ▸ hx))

/-- One CRCBYTE a byte folds the bytes into CRC, and the host goes on with what it offers next. -/
theorem run_offerBytes (n : Nat) (bs : List Byte) (crc : Word) (rest : List Input) {s : State} (hp : s.ph = .idle)
    (hv : s.tblValid = true) :
    Host.Core.run Sys2Proof.core (bs.length + n) ((s.setCrc crc).setInputs (offerBytes bs ++ rest)) =
      Host.Core.run Sys2Proof.core n ((s.setCrc (bs.foldl (upd s.tbl) crc)).setInputs rest) := by
  induction bs generalizing crc with
  | nil => rw [List.length_nil, Nat.zero_add]; rfl
  | cons b bs ih =>
    have first := exec_crcbyte_of_ready (s := (s.setCrc crc).setInputs (offerBytes bs ++ rest)) b hp hv rfl
    rw [List.length_cons, Nat.add_right_comm]
    exact (run_command (s := (s.setCrc crc).setInputs (offerBytes (b :: bs) ++ rest)) hp rfl (decodeCommand_op3 b)
      first).trans (ih (upd s.tbl crc b))

/-- Settles O16: CRCINIT loads INIT, the bytes are folded in one by one, CRCFIN complements. -/
theorem engineCommandsComputeTheChecksum : Obligations.EngineCommandsComputeTheChecksum := by
  intro s bs hp hv hi
  rw [offer_crcExpansion] at hi
  change _ = Host.Outcome.next
    (((s.setCrc (checksum s.tbl bs ^^^ Config.xorOut)).setInputs []).setCcrc (checksum s.tbl bs))
  rw [checksum_xor_xorOut]
  have init := exec_crcinit_of_idle (s := s.setInputs (offerBytes bs ++ [.command (cmdWord 4#3 0)])) hp
  calc Host.Core.run Sys2Proof.core (bs.length + 2) s
      = Host.Core.run Sys2Proof.core (bs.length + 1)
          ((s.setCrc Config.init).setInputs (offerBytes bs ++ [Input.command (cmdWord 4#3 0)])) :=
        run_command hp hi (decodeCommand_op2 0) init
    _ = Host.Core.run Sys2Proof.core 1
          ((s.setCrc (bs.foldl (upd s.tbl) Config.init)).setInputs [.command (cmdWord 4#3 0)]) :=
        run_offerBytes 1 bs Config.init _ hp hv
    _ = .next (((s.setCrc (bs.foldl (upd s.tbl) Config.init)).setInputs []).setCcrc (checksum s.tbl bs)) :=
        run_command hp rfl (decodeCommand_op4 0) (exec_crcfin_of_written hp rfl)

theorem step_reset {s : State} {rest : List Input} (hi : s.inputs = .reset :: rest) :
    step s = .next (s.setInputs rest).applyReset := by
  unfold step; rw [hi]

/-- A reset and BUILD, whatever came before, give an idle block with its table. -/
theorem run_reset_build {n : Nat} {s : State} {arg : Byte} {rest : List Input}
    (hi : s.inputs = .reset :: .command (cmdWord 0#3 arg) :: rest) :
    Host.Core.run Sys2Proof.core (n + 2) s = Host.Core.run Sys2Proof.core n (s.setInputs rest).applyReset.buildTbl :=
  (run_core_of_next (step_reset hi)).trans
    (run_command (s := (s.setInputs (.command (cmdWord 0#3 arg) :: rest)).applyReset) rfl rfl (decodeCommand_op0 arg)
      (exec_build_of_idle (s := (s.setInputs rest).applyReset) rfl))

/-- Settles O17: the commands act on the rebuilt block as on any idle one. -/
theorem resetAndRebuildGiveTheSameChecksum : Obligations.ResetAndRebuildGiveTheSameChecksum := by
  intro s arg bs hi
  have crc := engineCommandsComputeTheChecksum
    (s.setInputs (offer s.params (crcExpansion bs))).applyReset.buildTbl bs rfl rfl rfl
  exact ⟨_, (run_reset_build hi).trans crc, rfl, rfl, rfl, rfl, rfl, rfl⟩

end Sys2Proof.Machine

/-! The chunk-stream validator (spec/41_chunk_validator.md): the launch, the step rules, how a run ends, the phase graph, and
whole chunk records. -/

namespace Sys2Proof.Machine

/-! ## The launch (R138) -/

theorem exec_validate_of_valid {s : State} (hp : s.ph = .idle) (hv : s.tblValid = true) :
    exec .validate s = .next s.launch := (whenIdle_of_idle _ hp).trans (whenTable_of_valid _ hv)

/-- Settles O27: the two acceptance tests in their order, then the launch. -/
theorem validateLaunchesARun : Obligations.ValidateLaunchesARun :=
  ⟨decodeCommand_op5, fun _ hp => whenIdle_of_busy _ hp,
    fun _ hp hv => (whenIdle_of_idle _ hp).trans (whenTable_of_invalid _ hv), fun _ => exec_validate_of_valid⟩

/-! ## One stream event by phase (R140 to R146) -/

section
variable {s : State} {b : Byte} {rest : List Byte}

theorem streamEvent_sig (hp : s.ph = .sig) (hs : s.src = b :: rest) :
    streamEvent s = .next (sigByte b (s.setSrc rest).advance) := by
  rw [streamEvent_of_cons hs, feedByte, onByte, State.advance_ph, State.setSrc_ph, hp]

theorem streamEvent_len (hp : s.ph = .len) (hs : s.src = b :: rest) :
    streamEvent s = .next (lenByte b (s.setSrc rest).advance) := by
  rw [streamEvent_of_cons hs, feedByte, onByte, State.advance_ph, State.setSrc_ph, hp]

theorem streamEvent_typ (hp : s.ph = .typ) (hs : s.src = b :: rest) :
    streamEvent s = .next (typByte b (s.setSrc rest).advance) := by
  rw [streamEvent_of_cons hs, feedByte, onByte, State.advance_ph, State.setSrc_ph, hp]

theorem streamEvent_dat (hp : s.ph = .dat) (hs : s.src = b :: rest) :
    streamEvent s = .next (datByte b (s.setSrc rest).advance) := by
  rw [streamEvent_of_cons hs, feedByte, onByte, State.advance_ph, State.setSrc_ph, hp]

theorem streamEvent_scr (hp : s.ph = .scr) (hs : s.src = b :: rest) :
    streamEvent s = scrByte b (s.setSrc rest).advance := by
  rw [streamEvent_of_cons hs, feedByte, onByte, State.advance_ph, State.setSrc_ph, hp]

end

theorem k_lt_three {k : BitVec 3} (h : k.toNat < 3) : k < 3#3 := (k_lt_three_iff k).2 h

theorem not_k_lt_three {k : BitVec 3} (h : 3 ≤ k.toNat) : ¬ k < 3#3 := fun hk => absurd ((k_lt_three_iff k).1 hk) (by omega)

theorem k_lt_seven {k : BitVec 3} (h : k.toNat < 7) : k < 7#3 := (k_lt_seven_iff k).2 h

theorem not_k_lt_seven {k : BitVec 3} (h : k.toNat = 7) : ¬ k < 7#3 := fun hk => absurd ((k_lt_seven_iff k).1 hk) (by omega)

/-- Settles O28: SIGOK takes the comparison at every byte, and decides at the eighth. -/
theorem signatureByteStep : Obligations.SignatureByteStep := by
  intro s b rest hp hs
  rw [streamEvent_sig hp hs]
  refine ⟨fun hk => ?_, fun hk ho => ?_, fun hk ho => ?_⟩
  · rw [sigByte_early (s := (s.setSrc rest).advance) (k_lt_seven hk)]; rfl
  · have ho' : (s.setSrc rest).advance.sigokAfter b = true := ho
    rw [sigByte_verified (s := (s.setSrc rest).advance) (not_k_lt_seven hk) ho', ho']; rfl
  · have ho' : (s.setSrc rest).advance.sigokAfter b = false := ho
    rw [sigByte_differs (s := (s.setSrc rest).advance) (not_k_lt_seven hk) ho', ho']; rfl

/-- Settles O29, by the two cases of the length byte's rule. -/
theorem lengthByteStep : Obligations.LengthByteStep := by
  intro s b rest hp hs
  rw [streamEvent_len hp hs]
  refine ⟨fun hk => ?_, fun hk => ?_⟩
  · rw [lenByte_early (s := (s.setSrc rest).advance) (k_lt_three hk)]; rfl
  · rw [lenByte_last (s := (s.setSrc rest).advance) (not_k_lt_three hk)]; rfl

/-- Settles O30, by the three cases of the type byte's rule. -/
theorem typeByteStep : Obligations.TypeByteStep := by
  intro s b rest hp hs
  rw [streamEvent_typ hp hs]
  refine ⟨fun hk => ?_, fun hk hl => ?_, fun hk hl => ?_⟩
  · rw [typByte_early (s := (s.setSrc rest).advance) (k_lt_three hk)]; rfl
  · rw [typByte_last_empty (s := (s.setSrc rest).advance) (not_k_lt_three hk) hl]; rfl
  · rw [typByte_last_payload (s := (s.setSrc rest).advance) (not_k_lt_three hk) hl]; rfl

theorem cnt_pred_toNat {cnt : Word} (h : cnt ≠ 0#32) : (cnt - 1#32).toNat + 1 = cnt.toNat := by bv_omega

/-- Settles O31, by the two cases of the payload byte's rule. -/
theorem payloadByteStep : Obligations.PayloadByteStep := by
  intro s b rest hp hc hs
  rw [streamEvent_dat hp hs]
  refine ⟨cnt_pred_toNat hc, fun hl => ?_, fun hl => ?_⟩
  · rw [datByte_more (s := (s.setSrc rest).advance) hl]; rfl
  · rw [datByte_last (s := (s.setSrc rest).advance) hl]; rfl

/-- The state in which a chunk's outcome is decided (R144): the computed checksum and the event record are written. -/
def State.emitChunk (s : State) (stored : Word) : State :=
  (s.setCcrc (s.crc ^^^ Config.xorOut)).emit
    { index := s.idx, typ := s.typ, length := s.len, stored := stored, computed := s.crc ^^^ Config.xorOut }

section
variable {s : State} {stored : Word}

theorem finishChunk_mismatch (hc : s.crc ^^^ Config.xorOut ≠ stored) :
    finishChunk stored s = .next ((s.emitChunk stored).terminate .mismatch .none) := if_pos hc

theorem finishChunk_terminator (hc : s.crc ^^^ Config.xorOut = stored) (ht : s.typ = s.params.terminator) :
    finishChunk stored s = .next ((s.emitChunk stored).terminate .allValid .none) :=
  (if_neg (not_not.2 hc)).trans (if_pos ht)

theorem finishChunk_nextChunk (hc : s.crc ^^^ Config.xorOut = stored) (ht : s.typ ≠ s.params.terminator)
    (hi : holdsIndex s.params (s.idx + 1) = true) :
    finishChunk stored s = .next (((s.emitChunk stored).setIdx (s.idx + 1)).enter .len) :=
  (if_neg (not_not.2 hc)).trans ((if_neg ht).trans (if_pos hi))

theorem finishChunk_overflow (hc : s.crc ^^^ Config.xorOut = stored) (ht : s.typ ≠ s.params.terminator)
    (hi : holdsIndex s.params (s.idx + 1) = false) : finishChunk stored s = .refused .indexOverflow :=
  (if_neg (not_not.2 hc)).trans ((if_neg ht).trans (if_neg (by simp [hi])))

end

/-- Settles O32: SCRC is shifted in, and its fourth byte finishes the chunk in one of four ways. -/
theorem storedByteStep : Obligations.StoredByteStep := by
  intro s b rest hp hs stored computed event
  rw [streamEvent_scr hp hs]
  have last (hk : 3 ≤ s.k.toNat) : scrByte b (s.setSrc rest).advance =
      finishChunk stored ((s.setSrc rest).advance.setScrc stored) := scrByte_last (not_k_lt_three hk)
  refine ⟨fun hk => ?_, fun hk hc => ?_, fun hk hc ht => ?_, fun hk hc ht hi => ?_, fun hk hc ht hi => ?_⟩
  · rw [scrByte_early (s := (s.setSrc rest).advance) (k_lt_three hk)]; rfl
  · rw [last hk, finishChunk_mismatch (s := (s.setSrc rest).advance.setScrc stored) hc]; rfl
  · rw [last hk, finishChunk_terminator (s := (s.setSrc rest).advance.setScrc stored) hc ht]; rfl
  · rw [last hk, finishChunk_nextChunk (s := (s.setSrc rest).advance.setScrc stored) hc ht hi]; rfl
  · rw [last hk, finishChunk_overflow (s := (s.setSrc rest).advance.setScrc stored) hc ht hi]

/-- Settles O33: the field is the phase's. -/
theorem endOfStreamIsTruncated : Obligations.EndOfStreamIsTruncated := by
  intro s _ hs
  refine ⟨s.ph.field, ⟨?_, ?_, ?_, ?_, ?_⟩, streamEvent_of_nil hs⟩ <;> intro hp <;> rw [hp] <;> rfl

/-! ## How a run ends (R146) -/

/-- If the step to `t` ends the run, `t` is what `terminate` leaves, with a field only if the stream was cut short. -/
def EndsByTerminate (s t : State) : Prop :=
  t.ph = .idle → ∃ (u : State) (kind : ResKind) (field : ResField),
    t = u.terminate kind field ∧ u.ph = s.ph ∧ (kind ≠ .truncated → field = .none)

theorem EndsByTerminate.goesOn {s t : State} (h : t.ph ≠ .idle) : EndsByTerminate s t := fun hp => absurd hp h

theorem EndsByTerminate.terminate {s u : State} (kind : ResKind) (hu : u.ph = s.ph) :
    EndsByTerminate s (u.terminate kind .none) := fun _ => ⟨u, kind, .none, rfl, hu, fun _ => rfl⟩

theorem sigByte_endsByTerminate {b : Byte} {s : State} (hp : s.ph = .sig) : EndsByTerminate s (sigByte b s) := by
  by_cases hk : s.k < 7#3
  · rw [sigByte_early hk]; exact .goesOn (by simp [hp])
  · cases ho : s.sigokAfter b
    · rw [sigByte_differs hk ho]; exact .terminate _ rfl
    · rw [sigByte_verified hk ho]; exact .goesOn (by simp)

/-! The three rules that cannot end a run: where they lead. -/

theorem lenByte_ph (b : Byte) (s : State) : (lenByte b s).ph = if s.k < 3#3 then s.ph else .typ := by
  simp [lenByte, apply_ite State.ph]

theorem typByte_ph (b : Byte) (s : State) :
    (typByte b s).ph = if s.k < 3#3 then s.ph else if s.len = 0#32 then .scr else .dat := by
  simp [typByte, apply_ite State.ph]

theorem datByte_ph (b : Byte) (s : State) : (datByte b s).ph = if s.cnt - 1#32 = 0#32 then .scr else s.ph := by
  simp [datByte, apply_ite State.ph]

theorem finishChunk_endsByTerminate {stored : Word} {s t : State} (h : finishChunk stored s = .next t) :
    EndsByTerminate s t := by
  obtain ⟨-, h'⟩ | ⟨-, -, h'⟩ | ⟨-, -, -, h'⟩ | ⟨-, -, -, h'⟩ := finishChunk_cases stored s <;> rw [h'] at h <;> cases h
  · exact .terminate _ rfl
  · exact .terminate _ rfl
  · exact .goesOn (by simp)

theorem onByte_endsByTerminate {b : Byte} {s t : State} (h : onByte b s = .next t) : EndsByTerminate s t := by
  obtain ⟨hp, rfl⟩ | ⟨hp, rfl⟩ | ⟨hp, rfl⟩ | ⟨hp, rfl⟩ | ⟨hp, -, rfl⟩ | ⟨-, -, hf⟩ := onByte_cases h
  · exact sigByte_endsByTerminate hp
  · exact .goesOn (by rw [lenByte_ph]; split <;> simp [hp])
  · exact .goesOn (by rw [typByte_ph]; split_ifs <;> simp [hp])
  · exact .goesOn (by rw [datByte_ph]; split <;> simp [hp])
  · exact .goesOn (by simp [hp])
  · exact finishChunk_endsByTerminate (s := s.setScrc (shiftin s.k s.scrc b)) hf

/-- Settles O34: `terminate` is what it is defined to be, and the two verdicts and end-of-stream are its only uses. -/
theorem everyEndingIsATermination : Obligations.EveryEndingIsATermination := by
  refine ⟨fun s kind field => ⟨rfl, rfl⟩, fun s t _ h ht => ?_⟩
  obtain ⟨-, rfl⟩ | ⟨b, rest, -, hb⟩ := streamEvent_cases h
  · exact ⟨s, .truncated, s.ph.field, rfl, rfl, fun hk => absurd rfl hk⟩
  · exact onByte_endsByTerminate (s := (s.setSrc rest).advance) hb ht

/-! ## The phase graph (R148) -/

theorem feed_of_idle {bs : List Byte} {s t : State} (hp : s.ph = .idle) (h : feed bs s = .next t) : t = s := by
  cases bs with
  | nil => cases h; rfl
  | cons b bs => rw [feed_cons_of_refused (feedByte_of_idle hp)] at h; cases h

/-- No instruction but VALIDATE takes an idle block out of IDLE. -/
theorem exec_keeps_idle {i : Instr} {s t : State} (hp : s.ph = .idle) (hi : i ≠ .validate) (h : exec i s = .next t) :
    t.ph = .idle := by
  obtain ⟨w, rfl⟩ | ⟨bs, hf⟩ := command_or_feed_of_next h
  · exact ((exec_command_sameRun h).resolve_right fun launched => hi launched.1).ph.trans hp
  · rw [feed_of_idle hp hf, hp]

theorem streamEvent_unique {s t u : State} (h : streamEvent s = .next t) (h' : streamEvent s = .next u) : t = u := by
  rw [h] at h'; cases h'; rfl

/-- The verdict at the eighth signature byte. -/
theorem sigByte_verdict (b : Byte) {s : State} (hk : ¬ s.k < 7#3) :
    ((sigByte b s).sigok = true ∧ (sigByte b s).ph = .len) ∨
    ((sigByte b s).sigok = false ∧ (sigByte b s).ph = .idle ∧ (sigByte b s).resKind = .notThisFormat) := by
  cases ho : s.sigokAfter b
  · rw [sigByte_differs hk ho, ho]; exact .inr ⟨rfl, rfl, rfl⟩
  · rw [sigByte_verified hk ho, ho]; exact .inl ⟨rfl, rfl⟩

/-- What the end of a chunk emits, and where it leads. -/
theorem finishChunk_next {stored : Word} {s t : State} (h : finishChunk stored s = .next t) :
    t.scrc = s.scrc ∧
    t.evt = s.evt ++ [{ index := s.idx, typ := s.typ, length := s.len, stored := stored, computed := t.ccrc }] ∧
    ((t.ccrc ≠ stored ∧ t.ph = .idle ∧ t.resKind = .mismatch) ∨
     (t.ccrc = stored ∧ s.typ = s.params.terminator ∧ t.ph = .idle ∧ t.resKind = .allValid) ∨
     (t.ccrc = stored ∧ s.typ ≠ s.params.terminator ∧ t.ph = .len ∧ t.idx = s.idx + 1)) := by
  obtain ⟨hc, h'⟩ | ⟨hc, ht, h'⟩ | ⟨hc, ht, -, h'⟩ | ⟨-, -, -, h'⟩ := finishChunk_cases stored s <;> rw [h'] at h <;> cases h
  · exact ⟨rfl, rfl, .inl ⟨hc, rfl, rfl⟩⟩
  · exact ⟨rfl, rfl, .inr (.inl ⟨hc, ht, rfl, rfl⟩)⟩
  · exact ⟨rfl, rfl, .inr (.inr ⟨hc, ht, rfl, rfl⟩)⟩

/-- The step of a chunk's last byte (R144). -/
theorem streamEvent_chunkEnd {s t : State} {b : Byte} {rest : List Byte} (h : streamEvent s = .next t) (hp : s.ph = .scr)
    (hk : 3 ≤ s.k.toNat) (hs : s.src = b :: rest) :
    t.evt = s.evt ++ [{ index := s.idx, typ := s.typ, length := s.len, stored := t.scrc, computed := t.ccrc }] ∧
    ((t.ccrc ≠ t.scrc ∧ t.ph = .idle ∧ t.resKind = .mismatch) ∨
     (t.ccrc = t.scrc ∧ s.typ = s.params.terminator ∧ t.ph = .idle ∧ t.resKind = .allValid) ∨
     (t.ccrc = t.scrc ∧ s.typ ≠ s.params.terminator ∧ t.ph = .len ∧ t.idx = s.idx + 1)) := by
  rw [streamEvent_scr hp hs, scrByte_last (s := (s.setSrc rest).advance) (not_k_lt_three hk)] at h
  obtain ⟨hscrc, hevt, outcome⟩ := finishChunk_next h
  have hstored : t.scrc = shiftin s.k s.scrc b := hscrc
  rw [hstored]
  exact ⟨hevt, outcome⟩

/-- Settles O45: the phase that each step rule writes, case by case. -/
theorem phasesFollowTheGraph : Obligations.PhasesFollowTheGraph := by
  refine ⟨fun s t h => ?_, fun i s t => exec_keeps_idle, fun s t b rest h => ⟨fun hs _ => ?_, fun hs => ?_⟩⟩
  · obtain ⟨hp, h⟩ := whenIdle_next h
    obtain ⟨-, h⟩ := whenTable_next h
    cases h
    exact ⟨hp, rfl⟩
  · obtain rfl := streamEvent_unique h (streamEvent_of_nil hs)
    exact ⟨rfl, rfl⟩
  have sig (hp : s.ph = .sig) := streamEvent_unique h (streamEvent_sig hp hs)
  have verdict (hp : s.ph = .sig) (hk : s.k.toNat = 7) : (t.sigok = true ∧ t.ph = .len) ∨
      (t.sigok = false ∧ t.ph = .idle ∧ t.resKind = .notThisFormat) :=
    sig hp ▸ sigByte_verdict b (s := (s.setSrc rest).advance) (not_k_lt_seven hk)
  have len (hp : s.ph = .len) := streamEvent_unique h (streamEvent_len hp hs)
  have typ (hp : s.ph = .typ) := streamEvent_unique h (streamEvent_typ hp hs)
  have dat (hp : s.ph = .dat) := streamEvent_unique h (streamEvent_dat hp hs)
  have scr (hp : s.ph = .scr) (hk : s.k.toNat = 3) := (streamEvent_chunkEnd h hp hk.ge hs).2
  refine ⟨fun hp hk => ?_, fun hp hk ho => ?_, fun hp hk ho => ?_, fun hp hk => ?_, fun hp hk => ?_, fun hp hk => ?_,
    fun hp hk hl => ?_, fun hp hk hl => ?_, fun hp hc => ?_, fun hp hc => ?_, fun hp hk => ?_, fun hp hk hc => ?_,
    fun hp hk hc ht => ?_, fun hp hk hc ht => ?_⟩
  · rw [sig hp, sigByte_early (s := (s.setSrc rest).advance) (k_lt_seven hk)]; exact hp
  · simpa [ho] using verdict hp hk
  · simpa [ho] using verdict hp hk
  · rw [len hp, lenByte_ph]; exact (if_pos (k_lt_three hk)).trans hp
  · rw [len hp, lenByte_ph]; exact if_neg (not_k_lt_three hk.ge)
  · rw [typ hp, typByte_ph]; exact (if_pos (k_lt_three hk)).trans hp
  · rw [typ hp, typByte_ph]; exact (if_neg (not_k_lt_three hk.ge)).trans (if_pos hl)
  · rw [typ hp, typByte_ph]; exact (if_neg (not_k_lt_three hk.ge)).trans (if_neg hl)
  · rw [dat hp, datByte_ph]; exact (if_neg (by simp; bv_omega)).trans hp
  · rw [dat hp, datByte_ph]; exact if_pos (by simp; bv_omega)
  · obtain rfl := streamEvent_unique h ((storedByteStep s b rest hp hs).1 hk)
    exact hp
  · simpa [hc] using scr hp hk
  · simpa [hc, ht] using scr hp hk
  · simpa [hc, ht] using scr hp hk

/-! ## The event records (R149) -/

theorem sigByte_evt (b : Byte) (s : State) : (sigByte b s).evt = s.evt := by simp [sigByte, apply_ite State.evt]

theorem lenByte_evt (b : Byte) (s : State) : (lenByte b s).evt = s.evt := by simp [lenByte, apply_ite State.evt]

theorem typByte_evt (b : Byte) (s : State) : (typByte b s).evt = s.evt := by simp [typByte, apply_ite State.evt]

theorem datByte_evt (b : Byte) (s : State) : (datByte b s).evt = s.evt := by simp [datByte, apply_ite State.evt]

/-- A byte that does not complete a chunk emits nothing. -/
theorem onByte_evt {b : Byte} {s t : State} (h : onByte b s = .next t) (hn : ¬(s.ph = .scr ∧ ¬ s.k < 3#3)) :
    t.evt = s.evt := by
  obtain ⟨-, rfl⟩ | ⟨-, rfl⟩ | ⟨-, rfl⟩ | ⟨-, rfl⟩ | ⟨-, -, rfl⟩ | ⟨hp, hk, -⟩ := onByte_cases h
  · exact sigByte_evt b s
  · exact lenByte_evt b s
  · exact typByte_evt b s
  · exact datByte_evt b s
  · rfl
  · exact absurd ⟨hp, hk⟩ hn

/-- Settles O54: the end of a chunk emits, and no other rule does. -/
theorem oneEventPerCompleteChunk : Obligations.OneEventPerCompleteChunk := by
  intro s t h
  refine ⟨fun ⟨hp, hk, hne⟩ => ?_, fun hn => ?_⟩
  · obtain ⟨b, rest, hs⟩ := List.exists_cons_of_ne_nil hne
    exact (streamEvent_chunkEnd h hp hk hs).1
  · obtain ⟨-, rfl⟩ | ⟨b, rest, hs, hb⟩ := streamEvent_cases h
    · rfl
    · exact onByte_evt (s := (s.setSrc rest).advance) hb fun ⟨hp, hk⟩ =>
        hn ⟨hp, Nat.le_of_not_lt fun hk' => hk (k_lt_three hk'), by simp [hs]⟩

/-! ## A run ends (R137, R211) -/

theorem holdsIndex_of_unbounded {p : Params} (hw : p.idxWidth = none) (n : Nat) : holdsIndex p n = true := by
  simp [holdsIndex, hw]

theorem finishChunk_of_unbounded (stored : Word) {s : State} (hw : s.params.idxWidth = none) :
    ∃ t, finishChunk stored s = .next t := by
  obtain ⟨-, h⟩ | ⟨-, -, h⟩ | ⟨-, -, -, h⟩ | ⟨-, -, hi, -⟩ := finishChunk_cases stored s
  · exact ⟨_, h⟩
  · exact ⟨_, h⟩
  · exact ⟨_, h⟩
  · exact absurd hi (by simp [holdsIndex_of_unbounded hw])

/-- Where IDX is unbounded every event of a run has its step. -/
theorem streamEvent_of_unbounded {s : State} (hp : s.ph ≠ .idle) (hw : s.params.idxWidth = none) :
    ∃ t, streamEvent s = .next t := by
  cases hs : s.src with
  | nil => exact ⟨_, streamEvent_of_nil hs⟩
  | cons b rest =>
    cases hph : s.ph with
    | idle => exact absurd hph hp
    | sig => exact ⟨_, streamEvent_sig hph hs⟩
    | len => exact ⟨_, streamEvent_len hph hs⟩
    | typ => exact ⟨_, streamEvent_typ hph hs⟩
    | dat => exact ⟨_, streamEvent_dat hph hs⟩
    | scr =>
      rw [streamEvent_scr hph hs]
      by_cases hk : s.k < 3#3
      · exact ⟨_, scrByte_early hk⟩
      · rw [scrByte_last (s := (s.setSrc rest).advance) hk]
        exact finishChunk_of_unbounded _ hw

/-- No event of a run touches the host's actions. -/
theorem streamEvent_inputs {s t : State} (h : streamEvent s = .next t) : t.inputs = s.inputs := by
  obtain ⟨-, rfl⟩ | ⟨b, rest, -, hb⟩ := streamEvent_cases h
  · rfl
  · exact (onByte_around hb).inputs

/-- Settles O50, by induction on the bytes that are left: an event ends the run or leaves one byte less. -/
theorem everyRunEnds : Obligations.EveryRunEnds := by
  intro s hp hi hw
  induction hs : s.src generalizing s with
  | nil =>
    have eos := (step_of_busy hp (.inl hi)).trans (streamEvent_of_nil hs)
    exact ⟨1, onEos s, Nat.le_refl 1, run_core_of_next eos, rfl, rfl⟩
  | cons b rest ih =>
    obtain ⟨u, hu⟩ := streamEvent_of_unbounded hp hw
    have first := (step_of_busy hp (.inl hi)).trans hu
    obtain ⟨hr, -⟩ | ⟨hidle, hres⟩ := streamEvent_phase hu
    · have src : u.src = rest := by rw [streamEvent_of_cons hs] at hu; exact (feedByte_around hu).src
      have params := (streamEvent_table hu).1
      obtain ⟨n, t, hn, run, ht⟩ := ih u hr ((streamEvent_inputs hu).trans hi) (params ▸ hw) src
      exact ⟨n + 1, t, Nat.succ_le_succ hn, (run_core_of_next first).trans run, ht⟩
    · exact ⟨1, u, Nat.le_add_left 1 _, run_core_of_next first, hidle, hres⟩

/-! ## A whole chunk record (R132, R144) -/

/-- The state in which the outcome of a chunk record is decided, the record begun in `s`: every register that its bytes
write. -/
def State.chunkRead (s : State) (length typ : Word) (data : List Byte) (stored : Word) : State :=
  { s with len := length, typ := typ, crc := checksum s.tbl (be32Bytes typ ++ data) ^^^ Config.xorOut, scrc := stored
           ccrc := checksum s.tbl (be32Bytes typ ++ data), cnt := if length = 0#32 then s.cnt else 0#32
           pos := s.pos + 12 + length.toNat
           evt := s.evt ++ [{ index := s.idx, typ := typ, length := length, stored := stored
                              computed := checksum s.tbl (be32Bytes typ ++ data) }]
           written := { s.written with len := true, typ := true, crc := true, scrc := true, ccrc := true
                                       cnt := s.written.cnt || length != 0#32 } }

section
variable {s : State} {length : Word} (typ : Word) {data : List Byte} (stored : Word)

/-- A whole chunk record, by its outcome. -/
theorem feed_chunkBytes_outcome (hp : s.ph = .len) (hk : s.k = 0#3) (hd : data.length = length.toNat) :
    feed (chunkBytes length typ data stored) s =
      if checksum s.tbl (be32Bytes typ ++ data) ≠ stored then
        .next ((s.chunkRead length typ data stored).terminate .mismatch .none)
      else if typ = s.params.terminator then .next ((s.chunkRead length typ data stored).terminate .allValid .none)
      else if holdsIndex s.params (s.idx + 1) then .next ((s.chunkRead length typ data stored).setIdx (s.idx + 1))
      else .refused .indexOverflow := by
  rw [feed_chunkBytes length typ data stored hp hk hd, ← checksum_xor_xorOut]
  cases s
  subst hp hk
  simp only [finishChunk, BitVec.xor_assoc, BitVec.xor_self, BitVec.xor_zero]
  rfl

variable {typ stored}

theorem feed_chunk_mismatch (hp : s.ph = .len) (hk : s.k = 0#3) (hd : data.length = length.toNat)
    (hc : stored ≠ checksum s.tbl (be32Bytes typ ++ data)) :
    feed (chunkBytes length typ data stored) s =
      .next ((s.chunkRead length typ data stored).terminate .mismatch .none) :=
  (feed_chunkBytes_outcome typ stored hp hk hd).trans (if_pos hc.symm)

theorem feed_chunk_allValid (hp : s.ph = .len) (hk : s.k = 0#3) (hd : data.length = length.toNat)
    (hc : stored = checksum s.tbl (be32Bytes typ ++ data)) (ht : typ = s.params.terminator) :
    feed (chunkBytes length typ data stored) s =
      .next ((s.chunkRead length typ data stored).terminate .allValid .none) :=
  (feed_chunkBytes_outcome typ stored hp hk hd).trans ((if_neg (not_not.2 hc.symm)).trans (if_pos ht))

theorem feed_chunk_nextChunk (hp : s.ph = .len) (hk : s.k = 0#3) (hd : data.length = length.toNat)
    (hc : stored = checksum s.tbl (be32Bytes typ ++ data)) (ht : typ ≠ s.params.terminator)
    (hi : holdsIndex s.params (s.idx + 1) = true) :
    feed (chunkBytes length typ data stored) s = .next ((s.chunkRead length typ data stored).setIdx (s.idx + 1)) :=
  (feed_chunkBytes_outcome typ stored hp hk hd).trans
    ((if_neg (not_not.2 hc.symm)).trans ((if_neg ht).trans (if_pos hi)))

theorem exec_chunk_of_atRecord (hp : s.ph = .len) (hk : s.k = 0#3) (hd : data.length = length.toNat)
    (ht : typ ≠ s.params.terminator) :
    exec (.chunk length typ data stored) s = feed (chunkBytes length typ data stored) s := by
  rw [← exec_chunkInstr typ stored hp hk hd, chunkInstr_generic ht]

theorem exec_chunkTerm_of_atRecord (hp : s.ph = .len) (hk : s.k = 0#3) (hd : data.length = length.toNat) :
    exec (.chunkTerm length data stored) s = feed (chunkBytes length s.params.terminator data stored) s := by
  rw [← exec_chunkInstr s.params.terminator stored hp hk hd, chunkInstr_terminator]

end

/-- Settles O37: the comparison agrees, and the type is not the terminator. -/
theorem goodChunkContinuesTheRun : Obligations.GoodChunkContinuesTheRun := by
  intro s length typ data hp hk hd ht hi c
  rw [exec_chunk_of_atRecord hp hk hd ht, feed_chunk_nextChunk hp hk hd rfl ht hi]
  rfl

/-- Settles O38: the comparison fails, and is decided first. -/
theorem wrongChunkIsAMismatch : Obligations.WrongChunkIsAMismatch := by
  intro s length typ data stored hp hk hd ht hc c
  rw [exec_chunk_of_atRecord hp hk hd ht, feed_chunk_mismatch hp hk hd hc, State.terminate, ← hk]
  rfl

/-- Settles O39: the comparison agrees, and then the type decides. -/
theorem goodTerminatorEndsAllValid : Obligations.GoodTerminatorEndsAllValid := by
  intro s length data hp hk hd c
  rw [exec_chunkTerm_of_atRecord hp hk hd, feed_chunk_allValid hp hk hd rfl rfl, State.terminate, ← hk]
  rfl

/-- Settles O40: the comparison fails, and the type is not looked at. -/
theorem wrongTerminatorIsAMismatch : Obligations.WrongTerminatorIsAMismatch := by
  intro s length data stored hp hk hd hc c
  rw [exec_chunkTerm_of_atRecord hp hk hd, feed_chunk_mismatch hp hk hd hc, State.terminate, ← hk]
  rfl

end Sys2Proof.Machine

/-! The functions of the contract and the run (spec/41_chunk_validator.md R130 to R132, R147): what each read finds at the front
of the stream, how far a run is in a field, and that the two levels agree. -/

namespace Sys2Proof.Machine

/-! ## The reads of the contract (R42, R130, R131) -/

/-- A read of four bytes fails, or gives the bytes of a word. -/
theorem srcRead_word_cases (bs : List Byte) :
    (bs.length < 4 ∧ srcRead 4 bs = .fail []) ∨
    ∃ w rest, bs = be32Bytes w ++ rest ∧ srcRead 4 bs = .bytes (be32Bytes w) rest := by
  by_cases h : 4 ≤ bs.length
  · have word := be32Bytes_be32Of (List.length_take_of_le h)
    exact .inr ⟨be32Of (bs.take 4), bs.drop 4, by rw [word, List.take_append_drop], by rw [word, srcRead_of_le h]⟩
  · exact .inl ⟨Nat.lt_of_not_le h, srcRead_of_lt (Nat.lt_of_not_le h)⟩

/-- What stands at the front of the stream, by the result of `read_chunk`: a whole record, or the fields before the one that the
stream is too short for. -/
theorem readChunk_cases (bs : List Byte) :
    (bs.length < 4 ∧ readChunk bs = .truncated .length []) ∨
    (∃ length short, bs = be32Bytes length ++ short ∧ short.length < 4 ∧ readChunk bs = .truncated .typ []) ∨
    (∃ length typ short, bs = be32Bytes length ++ (be32Bytes typ ++ short) ∧ short.length < length.toNat ∧
      readChunk bs = .truncated .data []) ∨
    (∃ length typ data short, bs = be32Bytes length ++ (be32Bytes typ ++ (data ++ short)) ∧ data.length = length.toNat ∧
      short.length < 4 ∧ readChunk bs = .truncated .crc []) ∨
    (∃ length typ data stored rest, bs = chunkBytes length typ data stored ++ rest ∧ data.length = length.toNat ∧
      readChunk bs = .chunk { length := length, typ := be32Bytes typ, data := data, stored := stored } rest) := by
  obtain ⟨short, h1⟩ | ⟨length, bs1, rfl, h1⟩ := srcRead_word_cases bs
  · exact .inl ⟨short, by simp only [readChunk, h1]⟩
  obtain ⟨short, h2⟩ | ⟨typ, bs2, rfl, h2⟩ := srcRead_word_cases bs1
  · exact .inr (.inl ⟨length, bs1, rfl, short, by simp only [readChunk, h1, h2]⟩)
  by_cases hd : length.toNat ≤ bs2.length
  case neg =>
    have short := Nat.lt_of_not_le hd
    exact .inr (.inr (.inl ⟨length, typ, bs2, rfl, short, by
      simp only [readChunk, h1, h2, be32Of_be32Bytes, srcRead_of_lt short]⟩))
  have h3 := srcRead_of_le hd
  have hdata := List.length_take_of_le hd
  have split := List.take_append_drop length.toNat bs2
  obtain ⟨short, h4⟩ | ⟨stored, rest, hrest, h4⟩ := srcRead_word_cases (bs2.drop length.toNat)
  · exact .inr (.inr (.inr (.inl ⟨length, typ, bs2.take length.toNat, bs2.drop length.toNat, by rw [split], hdata, short, by
      simp only [readChunk, h1, h2, be32Of_be32Bytes, h3, h4]⟩)))
  · refine .inr (.inr (.inr (.inr ⟨length, typ, bs2.take length.toNat, stored, rest, ?_, hdata, ?_⟩)))
    · simp only [chunkBytes, List.append_assoc]
      rw [← hrest, split]
    · simp only [readChunk, h1, h2, be32Of_be32Bytes, h3, h4]

/-! ## The functions of the contract, one equation per outcome (R130, R132) -/

section
variable {t : Vector Word 256} {terminator : Word}

theorem validateStream_of_short {bs : List Byte} (h : bs.length < 8) :
    validateStream t terminator bs =
      some { outcome := .truncated 0 .signature, index := 0, unread := [], evt := [] } := by
  simp [validateStream, verifySignature, srcRead_of_lt h]

theorem validateStream_of_differs {bs : List Byte} (h : 8 ≤ bs.length) (hd : bs.take 8 ≠ signatureBytes) :
    validateStream t terminator bs =
      some { outcome := .notThisFormat, index := 0, unread := bs.drop 8, evt := [] } := by
  simp [validateStream, verifySignature, srcRead_of_le h, hd]

theorem validateStream_of_matches {bs : List Byte} (h : 8 ≤ bs.length) (hm : bs.take 8 = signatureBytes) :
    validateStream t terminator bs = validateLoop t terminator (bs.length + 1) 0 [] (bs.drop 8) := by
  simp [validateStream, verifySignature, srcRead_of_le h, hm]

end

/-- Settles O47: the length is tested before the bytes are. -/
theorem shortSignatureIsTruncated : Obligations.ShortSignatureIsTruncated :=
  fun _ _ _ => ⟨validateStream_of_short, validateStream_of_differs⟩

section
variable {t : Vector Word 256} {terminator : Word} {fuel index : Nat} {evt : List EvtRec} {bs rest : List Byte}

theorem validateLoop_of_truncated {f : ResField} (h : readChunk bs = .truncated f rest) :
    validateLoop t terminator (fuel + 1) index evt bs =
      some { outcome := .truncated index f, index := index, unread := rest, evt := evt } := by
  simp [validateLoop, h]

/-- A chunk read whole: the event record, and then the three ways on. -/
theorem validateLoop_of_chunk {c : Chunk} {typ : Word} (h : readChunk bs = .chunk c rest) (ht : c.typ = be32Bytes typ) :
    let computed := checksum t (be32Bytes typ ++ c.data)
    let evt' := evt ++ [{ index := index, typ := typ, length := c.length, stored := c.stored, computed := computed }]
    validateLoop t terminator (fuel + 1) index evt bs =
      if computed ≠ c.stored then
        some { outcome := .mismatch typ c.stored computed, index := index, unread := rest, evt := evt' }
      else if typ = terminator then some { outcome := .allValid, index := index, unread := rest, evt := evt' }
      else validateLoop t terminator fuel (index + 1) evt' rest := by
  intro computed evt'
  rw [validateLoop, h]
  simp only [ht, be32Of_be32Bytes]
  rfl

end

/-! ## Within a field of a run -/

/-- Stream bytes that the current field still takes. -/
def State.fieldLeft (s : State) : Nat :=
  match s.ph with
  | .idle => 0
  | .sig => 8 - s.k.toNat
  | .len => 4 - s.k.toNat
  | .typ => 4 - s.k.toNat
  | .dat => s.cnt.toNat
  | .scr => 4 - s.k.toNat

/-- `t` is `n` bytes further in the field that `s` is in. -/
structure FurtherInField (n : Nat) (s t : State) : Prop where
  ph : t.ph = s.ph
  left : t.fieldLeft + n = s.fieldLeft
  idx : t.idx = s.idx
  evt : t.evt = s.evt

/-- In a field that K counts, one byte more is one step of K. -/
theorem FurtherInField.of_nextByte {s t : State} (hp : s.ph ≠ .dat) (hl : 1 < s.fieldLeft) (ph : t.ph = s.ph)
    (k : t.k = s.k + 1#3) (idx : t.idx = s.idx) (evt : t.evt = s.evt) : FurtherInField 1 s t := by
  refine ⟨ph, ?_, idx, evt⟩
  have counts (n : Nat) (hn : n ≤ 8) (hk : 1 < n - s.k.toNat) : n - (s.k + 1#3).toNat + 1 = n - s.k.toNat := by
    rw [k_succ_toNat (by omega)]; omega
  unfold State.fieldLeft at hl ⊢
  rw [ph, k]
  cases hph : s.ph <;> simp only [hph] at hl ⊢
  case idle => omega
  case dat => exact absurd hph hp
  case sig => exact counts 8 (by omega) hl
  all_goals exact counts 4 (by omega) hl

theorem k_lt_three_of_left {k : BitVec 3} (h : 1 < 4 - k.toNat) : k < 3#3 := k_lt_three (by omega)

/-- A byte that is not the last of its field. -/
theorem feedByte_within_field (b : Byte) {s : State} (h : 1 < s.fieldLeft) :
    ∃ t, feedByte b s = .next t ∧ FurtherInField 1 s t := by
  have left := h
  unfold State.fieldLeft at left
  cases hp : s.ph <;> simp only [hp] at left <;> simp only [feedByte, onByte, State.advance_ph, hp]
  case idle => omega
  case sig =>
    rw [sigByte_early (s := s.advance) (k_lt_seven (show s.k.toNat < 7 by omega))]
    exact ⟨_, rfl, .of_nextByte (by simp [hp]) h rfl rfl rfl rfl⟩
  case len =>
    rw [lenByte_early (s := s.advance) (k_lt_three_of_left left)]
    exact ⟨_, rfl, .of_nextByte (by simp [hp]) h rfl rfl rfl rfl⟩
  case typ =>
    rw [typByte_early (s := s.advance) (k_lt_three_of_left left)]
    exact ⟨_, rfl, .of_nextByte (by simp [hp]) h rfl rfl rfl rfl⟩
  case dat =>
    rw [datByte_more (s := s.advance) (show s.cnt - 1#32 ≠ 0#32 by bv_omega)]
    refine ⟨_, rfl, rfl, ?_, rfl, rfl⟩
    simp only [State.fieldLeft, State.setCnt_ph, State.foldByte_ph, State.advance_ph, hp, State.setCnt_cnt, State.advance_cnt]
    exact cnt_pred_toNat (by bv_omega)
  case scr =>
    rw [scrByte_early (s := s.advance) (k_lt_three_of_left left)]
    exact ⟨_, rfl, .of_nextByte (by simp [hp]) h rfl rfl rfl rfl⟩

/-- Bytes that do not reach the end of the field. -/
theorem feed_within_field {bs : List Byte} {s : State} (h : bs.length < s.fieldLeft) :
    ∃ t, feed bs s = .next t ∧ FurtherInField bs.length s t := by
  induction bs generalizing s with
  | nil => exact ⟨s, rfl, rfl, rfl, rfl, rfl⟩
  | cons b bs ih =>
    rw [List.length_cons] at h
    obtain ⟨u, hu, first⟩ := feedByte_within_field b (s := s) (by omega)
    have left := first.left
    obtain ⟨t, ht, others⟩ := ih (s := u) (by omega)
    refine ⟨t, (feed_cons_of_next hu).trans ht, others.ph.trans first.ph, ?_, others.idx.trans first.idx,
      others.evt.trans first.evt⟩
    rw [List.length_cons, ← Nat.add_assoc, others.left, left]

/-! ## The two levels (R147) -/

/-- POS counts the bytes of a record. -/
theorem feed_pos {bs : List Byte} {s t : State} (h : feed bs s = .next t) : t.pos = s.pos + bs.length := by
  induction bs generalizing s with
  | nil => cases h; rfl
  | cons b bs ih =>
    cases hb : feedByte b s with
    | next u =>
      have counted : u.pos = s.pos + 1 := (onByte_runOrResult (s := s.advance) hb).pos
      rw [feed_cons_of_next hb] at h
      rw [ih h, counted, List.length_cons, Nat.add_assoc, Nat.add_comm 1]
    | fault r => cases r
    | refused r => rw [feed_cons_of_refused hb] at h; cases h

/-- Several steps and then more. -/
theorem run_add_of_next {n m : Nat} {s t : State} (h : Host.Core.run Sys2Proof.core n s = .next t) :
    Host.Core.run Sys2Proof.core (n + m) s = Host.Core.run Sys2Proof.core m t := by
  induction n generalizing s with
  | zero => cases h; rw [Nat.zero_add]
  | succ n ih =>
    cases hs : step s with
    | next u =>
      rw [run_core_of_next hs] at h
      rw [Nat.add_right_comm, run_core_of_next hs, ih h]
    | fault r => cases r
    | refused r => rw [run_of_refused (M := Sys2Proof.core) hs] at h; cases h

/-- The steps from `s`, at most one a byte left and one more, end a run that shows what `r` reports. -/
def EndsAs (s : State) (r : RunReport) : Prop :=
  ∃ (n : Nat) (t : State), Host.Core.run Sys2Proof.core n s = .next t ∧ n ≤ s.src.length + 1 ∧
    t.result = some r.outcome ∧ t.idx = r.index ∧ t.src = r.unread ∧ t.pos + r.unread.length = s.pos + s.src.length ∧
    t.evt = r.evt

/-- A run that is over shows its own result. -/
theorem EndsAs.of_result {s : State} {outcome : RunOutcome} (h : s.result = some outcome) :
    EndsAs s { outcome := outcome, index := s.idx, unread := s.src, evt := s.evt } :=
  ⟨0, s, rfl, Nat.zero_le _, h, rfl, rfl, rfl, rfl⟩

/-- The bytes at the front of the source may be fed first. -/
theorem EndsAs.of_feed {s u : State} {bs rest : List Byte} {r : RunReport} (hi : s.inputs = []) (hs : s.src = bs ++ rest)
    (hf : feed bs (s.setSrc rest) = .next u) (h : EndsAs u r) : EndsAs s r := by
  obtain ⟨n, t, run, hn, result, idx, unread, pos, evt⟩ := h
  have first := run_eq_feed (.inl hi) hs (by simp [hf])
  have src : u.src = rest := (feed_around hf).src
  have counted := feed_pos hf
  rw [State.setSrc_pos] at counted
  rw [src] at hn pos
  refine ⟨bs.length + n, t, (run_add_of_next (first.trans hf)).trans run, ?_, result, idx, unread, ?_, evt⟩
  · rw [hs, List.length_append]; omega
  · rw [pos, counted, hs, List.length_append, Nat.add_assoc]

theorem not_idle_of_left {s : State} (h : 0 < s.fieldLeft) : s.ph ≠ .idle := fun hp => by simp [State.fieldLeft, hp] at h

/-- What is reported of a run that the end of its source cuts short in the field of its phase. -/
def State.cutShort (s : State) : RunReport :=
  { outcome := .truncated s.idx s.ph.field, index := s.idx, unread := [], evt := s.evt }

theorem EndsAs.of_eos {s : State} (hp : s.ph ≠ .idle) (hi : s.inputs = []) (hs : s.src = []) : EndsAs s s.cutShort :=
  ⟨1, onEos s, run_core_of_next ((step_of_busy hp (.inl hi)).trans (streamEvent_of_nil hs)), Nat.le_add_left 1 _, rfl, rfl,
    hs, congrArg (s.pos + List.length ·) hs.symm, rfl⟩

/-- A source that does not fill the current field. -/
theorem EndsAs.of_short {s : State} (hi : s.inputs = []) (short : s.src.length < s.fieldLeft) : EndsAs s s.cutShort := by
  obtain ⟨u, hu, further⟩ := feed_within_field (s := s.setSrc []) short
  have around := feed_around hu
  have hp : u.ph ≠ .idle := further.ph ▸ not_idle_of_left (Nat.zero_lt_of_lt short)
  have eos := EndsAs.of_eos hp (around.inputs.trans hi) around.src
  have same : u.cutShort = s.cutShort := by
    simp [State.cutShort, further.ph, further.idx, further.evt]
  exact .of_feed hi (List.append_nil _).symm hu (same ▸ eos)

/-- Fields at the front of the source, and then too few bytes for the field that follows them. -/
theorem EndsAs.of_feed_short {s u : State} {bs short : List Byte} (hi : s.inputs = []) (hs : s.src = bs ++ short)
    (hf : feed bs (s.setSrc short) = .next u) (hl : short.length < u.fieldLeft) (hidx : u.idx = s.idx)
    (hevt : u.evt = s.evt) :
    EndsAs s { outcome := .truncated s.idx u.ph.field, index := s.idx, unread := [], evt := s.evt } := by
  have around := feed_around hf
  have ends := EndsAs.of_short (s := u) (around.inputs.trans hi) (by rwa [around.src])
  rw [State.cutShort, hidx, hevt] at ends
  exact .of_feed hi hs hf ends

section
variable {s : State} (length typ : Word)

/-- The first two fields of a chunk that has a payload. -/
theorem feed_to_payload (hp : s.ph = .len) (hk : s.k = 0#3) (hl : length ≠ 0#32) :
    ∃ u, feed (be32Bytes length ++ be32Bytes typ) s = .next u ∧ u.ph = .dat ∧ u.cnt = length ∧ u.idx = s.idx ∧
      u.evt = s.evt :=
  ⟨_, (feed_append_of_next (feed_length length hp hk)).trans (feed_type typ rfl rfl), if_neg hl, if_neg hl, rfl, rfl⟩

/-- The first three fields of a chunk. -/
theorem feed_to_stored {data : List Byte} (hp : s.ph = .len) (hk : s.k = 0#3) (hd : data.length = length.toNat) :
    ∃ u, feed (be32Bytes length ++ be32Bytes typ ++ data) s = .next u ∧ u.ph = .scr ∧ u.k = 0#3 ∧ u.idx = s.idx ∧
      u.evt = s.evt := by
  have head := (feed_append_of_next (ys := be32Bytes typ) (feed_length length hp hk)).trans (feed_type typ rfl rfl)
  by_cases hl : length = 0#32
  · obtain rfl : data = [] := List.eq_nil_of_length_eq_zero (by rw [hd, hl]; rfl)
    rw [List.append_nil]
    exact ⟨_, head, if_pos hl, rfl, rfl, rfl⟩
  · have hne : data ≠ [] := by
      rintro rfl
      exact hl (BitVec.eq_of_toNat_eq hd.symm)
    exact ⟨_, (feed_append_of_next head).trans (feed_data data hne (if_neg hl) (by simp [hl, hd])), rfl, rfl, rfl, rfl⟩

end

/-- At the start of a chunk: the source holds a whole record, or the run ends as `read_chunk` reports. -/
theorem readChunk_chunk_or_endsAs {s : State} (hp : s.ph = .len) (hk : s.k = 0#3) (hi : s.inputs = []) :
    (∃ f, readChunk s.src = .truncated f [] ∧
      EndsAs s { outcome := .truncated s.idx f, index := s.idx, unread := [], evt := s.evt }) ∨
    ∃ length typ data stored rest, s.src = chunkBytes length typ data stored ++ rest ∧ data.length = length.toNat ∧
      readChunk s.src = .chunk { length := length, typ := be32Bytes typ, data := data, stored := stored } rest := by
  obtain ⟨hl, h⟩ | ⟨length, short, hs, hl, h⟩ | ⟨length, typ, short, hs, hl, h⟩ |
    ⟨length, typ, data, short, hs, hd, hl, h⟩ | chunk := readChunk_cases s.src
  · have ends := EndsAs.of_short hi (by simpa [State.fieldLeft, hp, hk] using hl)
    rw [State.cutShort, hp] at ends
    exact .inl ⟨_, h, ends⟩
  · exact .inl ⟨_, h, .of_feed_short hi hs (feed_length (s := s.setSrc short) length hp hk) hl rfl rfl⟩
  · have hne : length ≠ 0#32 := by
      rintro rfl
      exact Nat.not_lt_zero _ hl
    obtain ⟨u, hu, hph, hcnt, hidx, hevt⟩ := feed_to_payload (s := s.setSrc short) length typ hp hk hne
    rw [← List.append_assoc] at hs
    have ends := EndsAs.of_feed_short hi hs hu (by simpa [State.fieldLeft, hph, hcnt] using hl) hidx hevt
    rw [hph] at ends
    exact .inl ⟨_, h, ends⟩
  · obtain ⟨u, hu, hph, hk', hidx, hevt⟩ := feed_to_stored (s := s.setSrc short) length typ hp hk hd
    rw [← List.append_assoc, ← List.append_assoc] at hs
    have ends := EndsAs.of_feed_short hi hs hu (by simpa [State.fieldLeft, hph, hk'] using hl) hidx hevt
    rw [hph] at ends
    exact .inl ⟨_, h, ends⟩
  · exact .inr chunk

/-- The loop of `validate_stream` agrees with a run from the start of a chunk, by induction on the bound for the chunks. -/
theorem validateLoop_agrees {fuel : Nat} {s : State} (hp : s.ph = .len) (hk : s.k = 0#3) (hi : s.inputs = [])
    (hw : s.params.idxWidth = none) (hf : s.src.length < fuel) :
    ∃ r, validateLoop s.tbl s.params.terminator fuel s.idx s.evt s.src = some r ∧ EndsAs s r := by
  induction fuel generalizing s with
  | zero => exact absurd hf (Nat.not_lt_zero _)
  | succ fuel ih =>
    obtain ⟨f, h, ends⟩ | ⟨length, typ, data, stored, rest, hs, hd, h⟩ := readChunk_chunk_or_endsAs hp hk hi
    · exact ⟨_, validateLoop_of_truncated h, ends⟩
    rw [validateLoop_of_chunk h rfl]
    by_cases hc : stored = checksum s.tbl (be32Bytes typ ++ data)
    case neg =>
      rw [if_pos (Ne.symm hc)]
      exact ⟨_, rfl, .of_feed hi hs (feed_chunk_mismatch (s := s.setSrc rest) hp hk hd hc) (.of_result rfl)⟩
    rw [if_neg (not_not.2 hc.symm)]
    by_cases ht : typ = s.params.terminator
    · rw [if_pos ht]
      exact ⟨_, rfl, .of_feed hi hs (feed_chunk_allValid (s := s.setSrc rest) hp hk hd hc ht) (.of_result rfl)⟩
    · rw [if_neg ht]
      have fed := feed_chunk_nextChunk (s := s.setSrc rest) hp hk hd hc ht (holdsIndex_of_unbounded hw _)
      have shorter : rest.length < fuel := by
        have hlen := congrArg List.length hs
        rw [List.length_append, (Laws.MatchesRow.chunkBytes_row stored hd).1] at hlen
        omega
      obtain ⟨r, hr, ends⟩ :=
        ih (s := ((s.setSrc rest).chunkRead length typ data stored).setIdx (s.idx + 1)) hp hk hi hw shorter
      exact ⟨r, hr, .of_feed hi hs fed ends⟩

/-- Eight right bytes (R140). -/
theorem feed_signature_of_matches {s : State} (hp : s.ph = .sig) (hk : s.k = 0#3) (ho : s.sigok = true) :
    feed signatureBytes s = .next { s with pos := s.pos + 8, ph := .len } :=
  (exec_sig_of_atRecord hp hk).symm.trans ((signatureRecordCompletes s hp hk).1 ho)

/-- Any other eight bytes (R140, R171). -/
theorem feed_signature_of_differs {s : State} {r : List Byte} (hp : s.ph = .sig) (hk : s.k = 0#3) (hr : r.length = 8)
    (hd : r ≠ signatureBytes) :
    feed r s = .next (State.terminate { s with pos := s.pos + 8, sigok := false } .notThisFormat .none) := by
  have verdict : (s.sigok && r == signatureBytes) = false := by simp [hd]
  rw [feed_signature_field hp hk hr, verdict]
  rfl

/-- `validate_stream` agrees with a run from its launch. -/
theorem validateStream_agrees {s : State} (hp : s.ph = .sig) (hk : s.k = 0#3) (ho : s.sigok = true) (hidx : s.idx = 0)
    (hevt : s.evt = []) (hi : s.inputs = []) (hw : s.params.idxWidth = none) :
    ∃ r, validateStream s.tbl s.params.terminator s.src = some r ∧ EndsAs s r := by
  by_cases hl : s.src.length < 8
  · have ends := EndsAs.of_short hi (by simpa [State.fieldLeft, hp, hk] using hl)
    rw [State.cutShort, hp, hidx, hevt] at ends
    exact ⟨_, validateStream_of_short hl, ends⟩
  have hlong := Nat.le_of_not_lt hl
  have hs := (List.take_append_drop 8 s.src).symm
  by_cases hm : s.src.take 8 = signatureBytes
  · have fed := feed_signature_of_matches (s := s.setSrc (s.src.drop 8)) hp hk ho
    rw [← hm] at fed
    obtain ⟨r, hr, ends⟩ := validateLoop_agrees
      (s := { s.setSrc (s.src.drop 8) with pos := s.pos + 8, ph := .len }) (fuel := s.src.length + 1) rfl hk hi hw
      (Nat.lt_succ_of_le (List.drop_sublist 8 s.src).length_le)
    refine ⟨r, ?_, .of_feed hi hs fed ends⟩
    rw [validateStream_of_matches hlong hm, ← hidx, ← hevt]
    exact hr
  · have fed := feed_signature_of_differs (s := s.setSrc (s.src.drop 8)) hp hk (List.length_take_of_le hlong) hm
    refine ⟨_, validateStream_of_differs hlong hm, .of_feed hi hs fed ?_⟩
    rw [← hidx, ← hevt]
    exact .of_result rfl

/-- Settles O48: the launch, and then the run. -/
theorem theTwoLevelsAgree : Obligations.TheTwoLevelsAgree := by
  intro s w hp hv hw hd hi
  obtain ⟨r, hr, n, t, run, hn, result, idx, unread, pos, evt⟩ :=
    validateStream_agrees (s := (s.setInputs []).launch) rfl rfl rfl rfl rfl rfl hw
  have launched := run_command (n := n) hp hi hd (exec_validate_of_valid (s := s.setInputs []) hp hv)
  exact ⟨n + 1, t, r, launched.trans run, hr, Nat.succ_le_succ hn, result, idx, unread,
    pos.trans (Nat.zero_add _), evt⟩

end Sys2Proof.Machine

/-! Changed bytes (spec/60_exceptions.md R173): one update loses nothing of the running value or of the data byte, so that two
sequences that differ in one byte have different checksums. -/

namespace Sys2Proof.Machine

/-! ## One update loses nothing (R103, R114) -/

/-- As long as the low bit is 0 a round is a shift. -/
theorem crcRounds_of_low_zero {n : Nat} {a : Word} (h : ∀ i < n, a.getLsbD i = false) : crcRounds n a = a >>> n := by
  induction n generalizing a with
  | zero => simp [crcRounds]
  | succ n ih =>
    have shifted : ∀ i < n, (a >>> 1).getLsbD i = false := fun i hi => by
      rw [BitVec.getLsbD_ushiftRight]
      exact h (1 + i) (by omega)
    rw [crcRounds, crcRound_of_even (h 0 n.succ_pos), ih shifted, ← BitVec.shiftRight_add, Nat.add_comm]

/-- A word is its low byte and, XORed into it, the other bits. -/
theorem zext32_lowByte_xor (a : Word) : zext32 (a.extractLsb' 0 8) ^^^ ((a >>> 8) <<< 8) = a := by
  ext i hi
  by_cases h : i < 8
  · simp [zext32, h, hi]
  · have above : 8 + (i - 8) = i := by omega
    simp [zext32, h, above, hi]

theorem lowByte_xor_zext32 (c : Word) (b : Byte) : (c ^^^ zext32 b).extractLsb' 0 8 = c.extractLsb' 0 8 ^^^ b := by
  have data : (zext32 b).extractLsb' 0 8 = b := by
    rw [← BitVec.setWidth_eq_extractLsb' (by decide)]
    simp [zext32]
  rw [BitVec.extractLsb'_xor, data]

theorem xor_zext32_shift (c : Word) (b : Byte) : (c ^^^ zext32 b) >>> 8 = c >>> 8 := by
  have data : zext32 b >>> 8 = 0#32 := by
    ext i hi
    simp [zext32]
  rw [BitVec.ushiftRight_xor_distrib, data, BitVec.xor_zero]

/-- Eight rounds only shift the bits above the low byte. -/
theorem crcRounds_of_high (a : Word) : crcRounds Config.rounds ((a >>> 8) <<< 8) = a >>> 8 := by
  rw [crcRounds_of_low_zero fun i hi => by simp [show i < 8 from hi]]
  ext i hi
  simpa [Config.rounds] using BitVec.lt_of_getLsbD

/-- One update over `build_table()` is eight rounds on the running value XORed with the data byte: the table holds the rounds of
the low byte, and the other bits are only shifted. -/
theorem upd_buildTable (c : Word) (b : Byte) : upd buildTable c b = crcRounds Config.rounds (c ^^^ zext32 b) := by
  rw [← zext32_lowByte_xor (c ^^^ zext32 b), crcRounds_xor, crcRounds_of_high, lowByte_xor_zext32, xor_zext32_shift, upd,
    readTbl_buildTable, tblIndex_eq_lowByte_xor, tableEntry]

theorem crcRounds_injective (n : Nat) : Function.Injective (crcRounds n) := by
  intro a b h
  have hz : crcRounds n (a ^^^ b) = 0#32 := by rw [crcRounds_xor, h, BitVec.xor_self]
  exact BitVec.xor_eq_zero_iff.1 (eq_zero_of_crcRounds_eq_zero hz)

theorem upd_buildTable_injective (b : Byte) : Function.Injective fun c => upd buildTable c b := by
  intro c c' h
  simp only [upd_buildTable] at h
  exact (BitVec.xor_left_inj _).1 (crcRounds_injective _ h)

theorem upd_buildTable_byte_injective (c : Word) : Function.Injective (upd buildTable c) := by
  intro b b' h
  simp only [upd_buildTable] at h
  have hz : zext32 b = zext32 b' := (BitVec.xor_right_inj _).1 (crcRounds_injective _ h)
  simpa [zext32] using congrArg (BitVec.setWidth 8) hz

/-- Two running values that differ still do after any bytes. -/
theorem foldl_upd_injective (bs : List Byte) : Function.Injective fun c => bs.foldl (upd buildTable) c := by
  induction bs with
  | nil => exact Function.injective_id
  | cons b bs ih => exact ih.comp (upd_buildTable_injective b)

/-- Settles O9: the running values differ after the changed byte, and then to the end. -/
theorem oneChangedByteChangesTheChecksum : Obligations.OneChangedByteChangesTheChecksum := by
  intro front back b b' hb h
  have runs := (BitVec.xor_left_inj _).1 h
  rw [List.foldl_append, List.foldl_append] at runs
  exact hb (upd_buildTable_byte_injective _ (foldl_upd_injective back runs))

end Sys2Proof.Machine

/-! The outcomes and the refusals (spec/60_exceptions.md): what ends a run, what the registers hold then and how long, and what is
refused. -/

namespace Sys2Proof.Machine

/-! ## A result, and how long it lasts (R171, R177) -/

/-- Settles O36: no byte of the signature writes more than SIGOK, and K is 0 again. -/
theorem wrongSignatureIsNotThisFormat : Obligations.WrongSignatureIsNotThisFormat := by
  intro s r hp hk hr hd
  rw [feed_signature_of_differs hp hk hr hd, State.terminate, ← hk]

/-- Settles O57: outside a run an idle block at most takes over what the host gives it, or an engine command acts on it. -/
theorem aResultLastsUntilValidateOrReset : Obligations.AResultLastsUntilValidateOrReset := by
  intro s t hp h hreset hvalidate
  obtain ⟨-, bytes, inputs, rfl⟩ | ⟨hr, -⟩ | ⟨w, rest, hi, -, hx⟩ | ⟨rest, hi, -⟩ := step_idle_event_command_reset h
  · exact ⟨rfl, rfl, rfl, rfl, rfl, rfl, rfl, rfl, rfl, rfl, hp⟩
  · exact absurd hp hr
  · have same := (exec_command_sameRun hx).resolve_right fun launched => hvalidate w rest hi launched.1
    exact ⟨same.resValid, same.resKind, same.resField, same.idx, same.pos, same.typ, same.scrc, same.len, same.sigok,
      same.evt, same.ph.trans hp⟩
  · exact absurd hi (hreset rest)

/-! ## The registers after an outcome (R176) -/

/-- What a chunk that ends the run leaves of it: the type and the running value as the chunk had them, the two checksums
written, and the verdict their comparison gives. -/
structure ChunkVerdict (s t : State) : Prop where
  typ : t.typ = s.typ
  crc : t.crc = s.crc
  ccrc : t.ccrc = s.crc ^^^ Config.xorOut
  written : t.written = { s.written with scrc := true, ccrc := true, resKind := true, resField := true }
  verdict : (t.resKind = .mismatch ∧ t.ccrc ≠ t.scrc) ∨
    (t.resKind = .allValid ∧ t.ccrc = t.scrc ∧ s.typ = s.params.terminator)

theorem finishChunk_verdict {b : Byte} {s t : State}
    (h : finishChunk (shiftin s.k s.scrc b) (s.setScrc (shiftin s.k s.scrc b)) = .next t) (ht : t.ph = .idle) :
    ChunkVerdict s t := by
  obtain ⟨hc, h'⟩ | ⟨hc, hterm, h'⟩ | ⟨-, -, -, h'⟩ | ⟨-, -, -, h'⟩ :=
    finishChunk_cases (shiftin s.k s.scrc b) (s.setScrc (shiftin s.k s.scrc b)) <;> rw [h'] at h <;> cases h
  · exact ⟨rfl, rfl, rfl, rfl, .inl ⟨rfl, hc⟩⟩
  · exact ⟨rfl, rfl, rfl, rfl, .inr ⟨rfl, hc, hterm⟩⟩
  · cases ht

/-- A byte ends a run only as the last of the signature or of a chunk. -/
theorem onByte_ending {b : Byte} {s t : State} (h : onByte b s = .next t) (ht : t.ph = .idle) :
    t.resKind = .notThisFormat ∨ (s.ph = .scr ∧ ChunkVerdict s t) := by
  obtain ⟨hp, rfl⟩ | ⟨hp, rfl⟩ | ⟨hp, rfl⟩ | ⟨hp, rfl⟩ | ⟨hp, -, rfl⟩ | ⟨hp, -, hf⟩ := onByte_cases h
  · by_cases hk : s.k < 7#3
    · rw [sigByte_early hk] at ht; exact absurd ht (by simp [hp])
    · obtain ⟨-, hlen⟩ | ⟨-, -, hkind⟩ := sigByte_verdict b hk
      · rw [hlen] at ht; cases ht
      · exact .inl hkind
  · rw [lenByte_ph] at ht; split at ht <;> simp [hp] at ht
  · rw [typByte_ph] at ht; split_ifs at ht; simp [hp] at ht
  · rw [datByte_ph] at ht; split at ht <;> simp [hp] at ht
  · exact absurd ht (by simp [hp])
  · exact .inr ⟨hp, finishChunk_verdict hf ht⟩

/-- A run ends with its source, with a wrong signature, or with a chunk. -/
theorem streamEvent_ending {s t : State} (h : streamEvent s = .next t) (ht : t.ph = .idle) :
    (s.src = [] ∧ t = onEos s) ∨ t.resKind = .notThisFormat ∨ (s.ph = .scr ∧ ChunkVerdict s t) := by
  obtain eos | ⟨b, rest, -, hb⟩ := streamEvent_cases h
  · exact .inl eos
  · obtain hkind | ⟨hp, typ, crc, ccrc, written, verdict⟩ := onByte_ending hb ht
    · exact .inr (.inl hkind)
    · exact .inr (.inr ⟨hp, typ, crc, ccrc, written, verdict⟩)

/-- The phase in which the source ended, from the field that names it. -/
theorem Phase.of_field (ph : Phase) :
    (ph.field = .typ → ph = .typ) ∧ (ph.field = .data → ph = .dat) ∧ (ph.field = .crc → ph = .scr) := by
  cases ph <;> decide

/-- What was written when the source ended in a field, from what the invariant says of its phase. -/
theorem written_of_field {s : State} (h : s.Inv) :
    (s.ph.field = .typ ∨ s.ph.field = .data ∨ s.ph.field = .crc → s.written.len = true) ∧
      (s.ph.field = .data ∨ s.ph.field = .crc → s.written.typ = true) := by
  obtain ⟨header, typ, -⟩ := h.run_reads_written
  obtain ⟨atTyp, atDat, atScr⟩ := s.ph.of_field
  exact ⟨fun hf => (header (hf.imp atTyp (Or.imp atDat atScr))).2, fun hf => typ (hf.imp atDat atScr)⟩

/-- Settles O58: the invariant says how far a finished run came; which registers were written, and how the checksums compare,
its last event says. -/
theorem outcomeRegistersAreAsListed : Obligations.OutcomeRegistersAreAsListed := by
  intro s t hinv hr h ht
  have hres : t.resValid = true := ((streamEvent_phase h).resolve_left fun busy => busy.1 ht).2
  obtain ⟨-, -, fits⟩ := (streamEvent_inv hinv hr h).result_fits hres
  unfold State.outcomeFits at fits
  refine ⟨hres, ?_⟩
  obtain ⟨hs, rfl⟩ | hkind | ⟨hp, typ, crc, ccrc, written, verdict⟩ := streamEvent_ending h ht
  · obtain ⟨hlen, htyp⟩ := written_of_field hinv
    obtain ⟨hfield, hevt, -, hsig⟩ := fits
    exact ⟨nofun, nofun, nofun, nofun, fun _ => ⟨hfield, hs, hs, rfl, hevt, fun hf => (hsig hf).1, hlen, htyp⟩⟩
  · simp only [hkind] at fits ⊢
    obtain ⟨hfield, hsig, hidx, hevt, hpos⟩ := fits
    exact ⟨nofun, nofun, fun _ => ⟨hfield, hidx, hpos, hsig, hevt⟩, nofun, nofun⟩
  · have hcrc : t.crc = t.ccrc ^^^ 0xFFFFFFFF#32 := by
      rw [crc, ccrc, Config.xorOut, BitVec.xor_assoc, BitVec.xor_self, BitVec.xor_zero]
    obtain ⟨header, htyp, -⟩ := hinv.run_reads_written
    obtain ⟨hwcrc, hwlen⟩ := header (.inr (.inr hp))
    have hwritten : t.written.typ = true ∧ t.written.len = true ∧ t.written.scrc = true ∧ t.written.ccrc = true ∧
        t.written.crc = true := by rw [written]; exact ⟨htyp (.inr hp), hwlen, rfl, rfl, hwcrc⟩
    refine ⟨fun _ => hwritten, ?_⟩
    obtain ⟨hkind, hc⟩ | ⟨hkind, hc, hterm⟩ := verdict <;> simp only [hkind] at fits ⊢ <;>
      obtain ⟨hfield, hsig, hevt, hpos⟩ := fits
    · exact ⟨nofun, nofun, fun _ => ⟨hfield, hsig, hc.symm, hcrc, hevt, hpos⟩, nofun⟩
    · exact ⟨fun _ => ⟨hfield, hsig, typ.trans hterm, hc.symm, hcrc, hevt, hpos⟩, nofun, nofun, nofun⟩

/-! ## The refusals (R185, R207) -/

section
variable {s : State} {a : Answer} {r : Refusal}

theorem whenIdle_refused_iff :
    whenIdle s a = .refused r ↔ (s.ph ≠ .idle ∧ r = .busy) ∨ (s.ph = .idle ∧ a = .refused r) := by
  by_cases hp : s.ph = .idle
  · rw [whenIdle_of_idle a hp]; simp [hp]
  · rw [whenIdle_of_busy a hp]; simp [hp, eq_comm]

theorem whenTable_refused_iff :
    whenTable s a = .refused r ↔ (s.tblValid = false ∧ r = .tableNotBuilt) ∨ (s.tblValid = true ∧ a = .refused r) := by
  cases hv : s.tblValid with
  | true => rw [whenTable_of_valid a hv]; simp
  | false => rw [whenTable_of_invalid a hv]; simp [eq_comm]

theorem whenCrcWritten_refused_iff :
    whenCrcWritten s a = .refused r ↔
      (s.written.crc = false ∧ r = .crcUnwritten) ∨ (s.written.crc = true ∧ a = .refused r) := by
  cases hw : s.written.crc with
  | true => rw [whenCrcWritten_of_written a hw]; simp
  | false => rw [whenCrcWritten_of_unwritten a hw]; simp [eq_comm]

end

/-- The acceptance tests of the eight rows of the opcode map, each in its order. -/
theorem exec_command_refused_iff (s : State) (w : BitVec 11) (r : Refusal) : exec (decodeCommand w) s = .refused r ↔
    (s.ph ≠ .idle ∧ r = .busy) ∨
    (s.ph = .idle ∧ (cmdOp w = 6#3 ∨ cmdOp w = 7#3) ∧ r = .reservedOpcode) ∨
    (s.ph = .idle ∧ (cmdOp w = 1#3 ∨ cmdOp w = 3#3 ∨ cmdOp w = 5#3) ∧ s.tblValid = false ∧ r = .tableNotBuilt) ∨
    (s.ph = .idle ∧ cmdOp w = 3#3 ∧ s.tblValid = true ∧ s.written.crc = false ∧ r = .crcUnwritten) ∨
    (s.ph = .idle ∧ cmdOp w = 4#3 ∧ s.written.crc = false ∧ r = .crcUnwritten) := by
  obtain ⟨op, arg, rfl⟩ := exists_eq_cmdWord w
  rw [cmdOp_cmdWord]
  obtain rfl | rfl | rfl | rfl | rfl | rfl | rfl | rfl := op_cases op
  · simp [exec, execBuild, whenIdle_refused_iff]
  · simp [exec, execTblrd, whenIdle_refused_iff, whenTable_refused_iff]
  · simp [exec, execCrcinit, whenIdle_refused_iff]
  · simp [exec, execCrcbyte, whenIdle_refused_iff, whenTable_refused_iff, whenCrcWritten_refused_iff, and_or_left]
  · simp [exec, execCrcfin, whenIdle_refused_iff, whenCrcWritten_refused_iff]
  · simp [exec, execValidate, whenIdle_refused_iff, whenTable_refused_iff]
  · simp [exec, execReserved6, whenIdle_refused_iff, eq_comm (a := Refusal.reservedOpcode)]
  · simp [exec, execReserved7, whenIdle_refused_iff, eq_comm (a := Refusal.reservedOpcode)]

theorem finishChunk_refused_iff {stored : Word} {s : State} {r : Refusal} : finishChunk stored s = .refused r ↔
    r = .indexOverflow ∧ holdsIndex s.params (s.idx + 1) = false ∧ s.typ ≠ s.params.terminator ∧
      s.crc ^^^ Config.xorOut = stored := by
  obtain ⟨hc, h⟩ | ⟨-, ht, h⟩ | ⟨-, -, hi, h⟩ | ⟨hc, ht, hi, h⟩ := finishChunk_cases stored s <;> rw [h]
  · simp [hc]
  · simp [ht]
  · simp [hi]
  · simp [hc, ht, hi, eq_comm]

/-- Only the end of a chunk refuses a byte (R17, R185). -/
theorem streamEvent_refused_iff {s : State} {r : Refusal} (hp : s.ph ≠ .idle) : streamEvent s = .refused r ↔
    r = .indexOverflow ∧ s.ph = .scr ∧ 3 ≤ s.k.toNat ∧ holdsIndex s.params (s.idx + 1) = false ∧
      s.typ ≠ s.params.terminator ∧
      ∃ b rest, s.src = b :: rest ∧ s.crc ^^^ 0xFFFFFFFF#32 = shiftin s.k s.scrc b := by
  cases hs : s.src with
  | nil => simp [streamEvent_of_nil hs]
  | cons b rest =>
    cases hph : s.ph with
    | idle => exact absurd hph hp
    | sig => simp [streamEvent_sig hph hs]
    | len => simp [streamEvent_len hph hs]
    | typ => simp [streamEvent_typ hph hs]
    | dat => simp [streamEvent_dat hph hs]
    | scr =>
      rw [streamEvent_scr hph hs]
      by_cases hk : s.k.toNat < 3
      · rw [scrByte_early (s := (s.setSrc rest).advance) (k_lt_three hk)]
        simp [hk]
      · have last := Nat.le_of_not_lt hk
        rw [scrByte_last (s := (s.setSrc rest).advance) (not_k_lt_three last), finishChunk_refused_iff]
        simp [last, Config.xorOut]

/-- Whether a stream event is refused does not depend on what the host does next. -/
theorem streamEvent_setInputs_refused_iff {s : State} {r : Refusal} (inputs : List Input) (hp : s.ph ≠ .idle) :
    streamEvent (s.setInputs inputs) = .refused r ↔ streamEvent s = .refused r :=
  (streamEvent_refused_iff (s := s.setInputs inputs) hp).trans (streamEvent_refused_iff hp).symm

/-- An idle block refuses only a command word. -/
theorem step_of_idle_refused_iff {s : State} {r : Refusal} (hp : s.ph = .idle) : step s = .refused r ↔
    ∃ w rest, s.inputs = .command w :: rest ∧ exec (decodeCommand w) (s.setInputs rest) = .refused r := by
  unfold step
  split
  next hi => simp [hi, blockMoves_of_idle hp]
  next w rest hi => simp [hi, hp]
  next bytes rest hi => simp [hi, connectSource, hp]
  next rest hi => simp [hi]
  next rest hi => simp [hi, blockMoves_of_idle (s := s.setInputs rest) hp]
  next rest hi => simp [hi, awaitIdle, hp]

/-- A run is refused its stream event, or the host the connection of a source. -/
theorem step_of_busy_refused_iff {s : State} {r : Refusal} (hp : s.ph ≠ .idle) : step s = .refused r ↔
    ((∀ rest, s.inputs ≠ .reset :: rest) ∧ (∀ bs rest, s.inputs ≠ .connect bs :: rest) ∧ streamEvent s = .refused r) ∨
    ((∃ bs rest, s.inputs = .connect bs :: rest) ∧ r = .sourceNotExclusive) := by
  unfold step
  split
  next hi => simp [hi, blockMoves_of_busy hp]
  next w rest hi => simp [hi, hp, blockMoves_of_busy hp]
  next bytes rest hi => simp [hi, connectSource, hp, eq_comm (a := Refusal.sourceNotExclusive)]
  next rest hi => simp [hi]
  next rest hi =>
    simp [hi, blockMoves_of_busy (s := s.setInputs rest) hp, streamEvent_setInputs_refused_iff rest hp]
  next rest hi => simp [hi, awaitIdle, hp, blockMoves_of_busy hp]

/-- Settles O60: the refusals of a command word, of a stream event, and of a step of an idle and of a busy block. -/
theorem refusalsAreTheClosedList : Obligations.RefusalsAreTheClosedList := by
  refine ⟨exec_command_refused_iff, fun _ _ => streamEvent_refused_iff, fun s r => ?_, fun _ => nofun⟩
  by_cases hp : s.ph = .idle
  · rw [step_of_idle_refused_iff hp]
    simp [hp, State.setInputs]
  · rw [step_of_busy_refused_iff hp]
    simp [hp]

end Sys2Proof.Machine

/-! Reset, start-up and hazards (spec/70_reset_and_hazards.md): what each action of the host does to an idle block and to a block
in a run, and the host's sequence from reset to an outcome. -/

namespace Sys2Proof.Machine

/-! ## Reset (R200, R201) -/

/-- Settles O2: reset asks nothing of the state it finds. -/
theorem resetMayComeAtAnyTime : Obligations.ResetMayComeAtAnyTime :=
  fun _ _ hi => ⟨_, step_reset hi, rfl, rfl, rfl, rfl, rfl, rfl, rfl, rfl, rfl, rfl, rfl, rfl⟩

/-! ## One step by the host's action (R204, R207) -/

section
variable {s : State} {bytes : List Byte} {rest : List Input}

theorem step_of_no_input (hi : s.inputs = []) : step s = blockMoves s := by unfold step; rw [hi]

theorem step_connect (hi : s.inputs = .connect bytes :: rest) : step s = connectSource bytes (s.setInputs rest) := by
  unfold step; rw [hi]

theorem step_pause (hi : s.inputs = .pause :: rest) : step s = blockMoves (s.setInputs rest) := by unfold step; rw [hi]

theorem step_awaitIdle (hi : s.inputs = .awaitIdle :: rest) : step s = awaitIdle s (s.setInputs rest) := by
  unfold step; rw [hi]

theorem connectSource_of_idle (hp : s.ph = .idle) : connectSource bytes s = .next (s.setSrc bytes) := by
  simp [connectSource, hp]

theorem connectSource_of_busy (hp : s.ph ≠ .idle) : connectSource bytes s = .refused .sourceNotExclusive := by
  simp [connectSource, hp]

theorem awaitIdle_of_idle (done : State) (hp : s.ph = .idle) : awaitIdle s done = .next done := by simp [awaitIdle, hp]

theorem awaitIdle_of_busy (done : State) (hp : s.ph ≠ .idle) : awaitIdle s done = streamEvent s := by
  simp [awaitIdle, hp, blockMoves_of_busy hp]

end

/-- Settles O43: five forms of the host's actions in a run, and four that an idle block meets. -/
theorem stepTakesStreamEventsOnlyInARun : Obligations.StepTakesStreamEventsOnlyInARun := by
  intro s w bs rest
  refine ⟨?runQuiet, ?runCommand, ?runAwait, ?runPause, ?runConnect, ?idleQuiet, ?idleAwait, ?idlePause, ?idleConnect⟩
  case runQuiet => exact fun hp hi => step_of_busy hp (.inl hi)
  case runCommand => exact fun hp hi => step_of_busy hp (.inr ⟨w, rest, hi⟩)
  case runAwait => exact fun hp hi => (step_awaitIdle hi).trans (awaitIdle_of_busy _ hp)
  case runPause => exact fun hp hi => (step_pause hi).trans (blockMoves_of_busy (s := s.setInputs rest) hp)
  case runConnect => exact fun hp hi => (step_connect hi).trans (connectSource_of_busy (s := s.setInputs rest) hp)
  case idleQuiet => exact fun hp hi => (step_of_no_input hi).trans (blockMoves_of_idle hp)
  case idleAwait => exact fun hp hi => (step_awaitIdle hi).trans (awaitIdle_of_idle _ hp)
  case idlePause => exact fun hp hi => (step_pause hi).trans (blockMoves_of_idle (s := s.setInputs rest) hp)
  case idleConnect => exact fun hp hi => (step_connect hi).trans (connectSource_of_idle (s := s.setInputs rest) hp)

/-! ## Start-up (R202, R203) -/

/-- With no action of the host a step keeps TBL_VALID, and brings no action. -/
theorem step_quiet_tblValid {s t : State} (hi : s.inputs = []) (h : step s = .next t) :
    t.inputs = [] ∧ t.tblValid = s.tblValid := by
  rw [step_of_no_input hi] at h
  by_cases hp : s.ph = .idle
  · rw [blockMoves_of_idle hp] at h
    cases h
    exact ⟨hi, rfl⟩
  · rw [blockMoves_of_busy hp] at h
    obtain ⟨-, -, valid⟩ := streamEvent_table h
    exact ⟨(streamEvent_inputs h).trans hi, valid⟩

/-- With no action of the host any number of steps keeps TBL_VALID. -/
theorem run_tblValid_of_no_input {n : Nat} {s t : State} (hi : s.inputs = [])
    (h : Host.Core.run Sys2Proof.core n s = .next t) : t.tblValid = s.tblValid := by
  induction n generalizing s with
  | zero => cases h; rfl
  | succ n ih =>
    cases hs : step s with
    | next u =>
      rw [run_core_of_next hs] at h
      obtain ⟨quiet, valid⟩ := step_quiet_tblValid hi hs
      exact (ih quiet h).trans valid
    | fault r => cases r
    | refused r => rw [run_of_refused (M := Sys2Proof.core) hs] at h; cases h

/-- Only an idle block shows a result. -/
theorem idle_of_result {s : State} {outcome : RunOutcome} (h : s.result = some outcome) : s.ph = .idle := by
  by_contra hp
  simp [State.result, hp] at h

/-- Steps 3 and 4 of R203: an idle block with a table, whose host connects a source and issues VALIDATE, comes to the outcome of
`validate_stream` and still has its table. -/
theorem run_connect_validate {s : State} {bs : List Byte} (hp : s.ph = .idle) (hv : s.tblValid = true)
    (hw : s.params.idxWidth = none) (hi : s.inputs = [.connect bs, .command (cmdWord 5#3 0)]) :
    ∃ (n : Nat) (t : State) (r : RunReport),
      Host.Core.run Sys2Proof.core n s = .next t ∧ validateStream s.tbl s.params.terminator bs = some r ∧
      t.ph = .idle ∧ t.result = some r.outcome ∧ t.idx = r.index ∧ t.src = r.unread ∧ t.evt = r.evt ∧ t.tblValid = true := by
  have connected := (step_connect hi).trans (connectSource_of_idle (s := s.setInputs _) hp)
  obtain ⟨r, hr, n, t, run, -, result, idx, unread, -, evt⟩ :=
    validateStream_agrees (s := ((s.setSrc bs).setInputs []).launch) rfl rfl rfl rfl rfl rfl hw
  have launched := run_command (n := n) (s := (s.setInputs [.command (cmdWord 5#3 0)]).setSrc bs) hp rfl (decodeCommand_op5 0)
    (exec_validate_of_valid (s := (s.setSrc bs).setInputs []) hp hv)
  exact ⟨n + 2, t, r, (run_core_of_next connected).trans (launched.trans run), hr, idle_of_result result, result, idx, unread,
    evt, (run_tblValid_of_no_input (s := ((s.setSrc bs).setInputs []).launch) rfl run).trans hv⟩

/-- Settles O49: reset and BUILD lead to the state from which the other alternative starts, an idle block whose table is
`build_table()`. -/
theorem startUpSequenceGivesTheOutcome : Obligations.StartUpSequenceGivesTheOutcome := by
  intro s bs hw start
  obtain hi | ⟨hinv, hp, hv, hi⟩ := start
  · obtain ⟨n, t, r, run, outcome⟩ := run_connect_validate
      (s := (s.setInputs [.connect bs, .command (cmdWord 5#3 0)]).applyReset.buildTbl) rfl rfl hw rfl
    exact ⟨n + 2, t, r, (run_reset_build hi).trans run, outcome⟩
  · rw [← hinv.table_built hv]
    exact run_connect_validate hp hv hw hi

end Sys2Proof.Machine
